-- ==== Sys2Proof/Word.lean ====
section
/-! DEFINITION. The two word widths of the Motorola 6809 (spec/00_scope.md R5). -/

namespace Sys2Proof

/-- The addressable unit: 8 bits (R5, R61). -/
abbrev Byte := BitVec 8

/-- A 16-bit register or address (R5, R60). -/
abbrev Word := BitVec 16

end Sys2Proof
end

