-- ==== Sys2Proof/Syntax.lean ====
section
/-! DEFINITION. The instructions of the 6809 as syntax: one constructor per mnemonic of
spec/opcode_table.json. The table's rows of one mnemonic differ only in the addressing form, which is
the constructor's operand (log 1). The nine alias rows (R120) have constructors of their own. -/

namespace Sys2Proof

/-- The register an indexed postbyte names in its field RR (R146). -/
inductive IndexReg where
  | x | y | u | s
deriving DecidableEq, Repr

/-- The forms MMMM of an indexed postbyte on an index register (R145): automatic increment and
decrement, no offset, accumulator offset, constant offset. -/
inductive IndexForm where
  | postInc1 | postInc2 | preDec1 | preDec2
  | zero
  | accB | accA | accD
  | off8 (n : Byte)
  | off16 (nn : Word)
deriving DecidableEq, Repr

/-- An indexed operand: the postbyte with its offset bytes (R145, R165). -/
inductive Indexed where
  /-- 5-bit signed constant offset, never indirect (R147). -/
  | off5 (r : IndexReg) (n : BitVec 5)
  /-- Form `f` on register `r`, with one level of indirection if `ind` (R148 to R156, R160). -/
  | form (r : IndexReg) (f : IndexForm) (ind : Bool)
  /-- PC-relative, 8-bit offset (R157, R160). -/
  | pcr8 (n : Byte) (ind : Bool)
  /-- PC-relative, 16-bit offset (R158, R160). -/
  | pcr16 (nn : Word) (ind : Bool)
  /-- Extended indirect `[nn]`, postbyte 9FH (R159). -/
  | extInd (nn : Word)
deriving DecidableEq, Repr

/-- A memory operand (R140): direct (R143), indexed (R145), extended (R144). -/
inductive Mem where
  | direct (n : Byte)
  | indexed (p : Indexed)
  | extended (nn : Word)
deriving DecidableEq, Repr

/-- An 8-bit source operand: immediate (R99, R142) or in memory. -/
inductive Src8 where
  | imm (n : Byte)
  | mem (m : Mem)
deriving DecidableEq, Repr

/-- A 16-bit source operand: immediate (R100, R142) or in memory. -/
inductive Src16 where
  | imm (nn : Word)
  | mem (m : Mem)
deriving DecidableEq, Repr

/-- The 16-bit registers of a TFR or EXG postbyte (R313). -/
inductive Reg16 where
  | d | x | y | u | s | pc
deriving DecidableEq, Repr

/-- The 8-bit registers of a TFR or EXG postbyte (R313). -/
inductive Reg8 where
  | a | b | cc | dp
deriving DecidableEq, Repr

/-- "Any register" of TFR and EXG, with its width (R43, R313). -/
inductive AnyReg where
  | wide (r : Reg16)
  | byte (r : Reg8)
deriving DecidableEq, Repr

/-- The instructions. Each constructor stands for its mnemonic's rows of the opcode table; its docstring
names the rule that gives its meaning. -/
inductive Instr where
  /-- ABX, R210. -/
  | abx
  /-- ADCA, R211, immediate 8, direct, indexed or extended. -/
  | adca (src : Src8)
  /-- ADCB, R211, immediate 8, direct, indexed or extended. -/
  | adcb (src : Src8)
  /-- ADDA, R212, immediate 8, direct, indexed or extended. -/
  | adda (src : Src8)
  /-- ADDB, R212, immediate 8, direct, indexed or extended. -/
  | addb (src : Src8)
  /-- ADDD, R213, immediate 16, direct, indexed or extended. -/
  | addd (src : Src16)
  /-- CLR, R214, direct, indexed or extended. -/
  | clr (m : Mem)
  /-- CLRA, R215. -/
  | clra
  /-- CLRB, R215. -/
  | clrb
  /-- CMPA, R216, immediate 8, direct, indexed or extended. -/
  | cmpa (src : Src8)
  /-- CMPB, R216, immediate 8, direct, indexed or extended. -/
  | cmpb (src : Src8)
  /-- CMPD, R217, immediate 16, direct, indexed or extended. -/
  | cmpd (src : Src16)
  /-- CMPS, R218, immediate 16, direct, indexed or extended. -/
  | cmps (src : Src16)
  /-- CMPU, R219, immediate 16, direct, indexed or extended. -/
  | cmpu (src : Src16)
  /-- CMPX, R220, immediate 16, direct, indexed or extended. -/
  | cmpx (src : Src16)
  /-- CMPY, R220, immediate 16, direct, indexed or extended. -/
  | cmpy (src : Src16)
  /-- DAA, R221. -/
  | daa
  /-- DEC, R222, direct, indexed or extended. -/
  | dec (m : Mem)
  /-- DECA, R223. -/
  | deca
  /-- DECB, R223. -/
  | decb
  /-- INC, R224, direct, indexed or extended. -/
  | inc (m : Mem)
  /-- INCA, R225. -/
  | inca
  /-- INCB, R225. -/
  | incb
  /-- MUL, R226. -/
  | mul
  /-- NEG, R227, direct, indexed or extended. -/
  | neg (m : Mem)
  /-- NEGA, R228. -/
  | nega
  /-- NEGB, R228. -/
  | negb
  /-- SBCA, R229, immediate 8, direct, indexed or extended. -/
  | sbca (src : Src8)
  /-- SBCB, R229, immediate 8, direct, indexed or extended. -/
  | sbcb (src : Src8)
  /-- SEX, R230. -/
  | sex
  /-- SUBA, R231, immediate 8, direct, indexed or extended. -/
  | suba (src : Src8)
  /-- SUBB, R231, immediate 8, direct, indexed or extended. -/
  | subb (src : Src8)
  /-- SUBD, R232, immediate 16, direct, indexed or extended. -/
  | subd (src : Src16)
  /-- TST, R233, direct, indexed or extended. -/
  | tst (m : Mem)
  /-- TSTA, R234. -/
  | tsta
  /-- TSTB, R234. -/
  | tstb
  /-- ANDA, R260, immediate 8, direct, indexed or extended. -/
  | anda (src : Src8)
  /-- ANDB, R260, immediate 8, direct, indexed or extended. -/
  | andb (src : Src8)
  /-- ANDCC, R261, immediate 8. -/
  | andcc (n : Byte)
  /-- ASL, R262, direct, indexed or extended. -/
  | asl (m : Mem)
  /-- ASLA, R263. -/
  | asla
  /-- ASLB, R263. -/
  | aslb
  /-- ASR, R264, direct, indexed or extended. -/
  | asr (m : Mem)
  /-- ASRA, R265. -/
  | asra
  /-- ASRB, R265. -/
  | asrb
  /-- BITA, R266, immediate 8, direct, indexed or extended. -/
  | bita (src : Src8)
  /-- BITB, R266, immediate 8, direct, indexed or extended. -/
  | bitb (src : Src8)
  /-- COM, R267, direct, indexed or extended. -/
  | com (m : Mem)
  /-- COMA, R268. -/
  | coma
  /-- COMB, R268. -/
  | comb
  /-- EORA, R269, immediate 8, direct, indexed or extended. -/
  | eora (src : Src8)
  /-- EORB, R269, immediate 8, direct, indexed or extended. -/
  | eorb (src : Src8)
  /-- LSL, R270, direct, indexed or extended (a second name for ASL, R120). -/
  | lsl (m : Mem)
  /-- LSLA, R271 (a second name for ASLA, R120). -/
  | lsla
  /-- LSLB, R271 (a second name for ASLB, R120). -/
  | lslb
  /-- LSR, R272, direct, indexed or extended. -/
  | lsr (m : Mem)
  /-- LSRA, R273. -/
  | lsra
  /-- LSRB, R273. -/
  | lsrb
  /-- ORA, R274, immediate 8, direct, indexed or extended. -/
  | ora (src : Src8)
  /-- ORB, R274, immediate 8, direct, indexed or extended. -/
  | orb (src : Src8)
  /-- ORCC, R275, immediate 8. -/
  | orcc (n : Byte)
  /-- ROL, R276, direct, indexed or extended. -/
  | rol (m : Mem)
  /-- ROLA, R277. -/
  | rola
  /-- ROLB, R277. -/
  | rolb
  /-- ROR, R278, direct, indexed or extended. -/
  | ror (m : Mem)
  /-- RORA, R279. -/
  | rora
  /-- RORB, R279. -/
  | rorb
  /-- LDA, R300, immediate 8, direct, indexed or extended. -/
  | lda (src : Src8)
  /-- LDB, R300, immediate 8, direct, indexed or extended. -/
  | ldb (src : Src8)
  /-- LDD, R301, immediate 16, direct, indexed or extended. -/
  | ldd (src : Src16)
  /-- LDS, R302, immediate 16, direct, indexed or extended. -/
  | lds (src : Src16)
  /-- LDU, R303, immediate 16, direct, indexed or extended. -/
  | ldu (src : Src16)
  /-- LDX, R304, immediate 16, direct, indexed or extended. -/
  | ldx (src : Src16)
  /-- LDY, R304, immediate 16, direct, indexed or extended. -/
  | ldy (src : Src16)
  /-- LEAX, R305, indexed. -/
  | leax (p : Indexed)
  /-- LEAY, R305, indexed. -/
  | leay (p : Indexed)
  /-- LEAS, R305, indexed. -/
  | leas (p : Indexed)
  /-- LEAU, R305, indexed. -/
  | leau (p : Indexed)
  /-- STA, R306, direct, indexed or extended. -/
  | sta (m : Mem)
  /-- STB, R306, direct, indexed or extended. -/
  | stb (m : Mem)
  /-- STD, R307, direct, indexed or extended. -/
  | std (m : Mem)
  /-- STS, R308, direct, indexed or extended. -/
  | sts (m : Mem)
  /-- STU, R309, direct, indexed or extended. -/
  | stu (m : Mem)
  /-- STX, R310, direct, indexed or extended. -/
  | stx (m : Mem)
  /-- STY, R310, direct, indexed or extended. -/
  | sty (m : Mem)
  /-- TFR, R311, register postbyte. -/
  | tfr (r1 r2 : AnyReg)
  /-- EXG, R312, register postbyte. -/
  | exg (r1 r2 : AnyReg)
  /-- PSHS, R314, stack postbyte. -/
  | pshs (mask : Byte)
  /-- PSHU, R315, stack postbyte. -/
  | pshu (mask : Byte)
  /-- PULS, R316, stack postbyte. -/
  | puls (mask : Byte)
  /-- PULU, R317, stack postbyte. -/
  | pulu (mask : Byte)
  /-- BCC, R341, short relative. -/
  | bcc (off : Byte)
  /-- BCS, R342, short relative. -/
  | bcs (off : Byte)
  /-- BEQ, R343, short relative. -/
  | beq (off : Byte)
  /-- BGE, R344, short relative. -/
  | bge (off : Byte)
  /-- BGT, R345, short relative. -/
  | bgt (off : Byte)
  /-- BHI, R346, short relative. -/
  | bhi (off : Byte)
  /-- BHS, R347, short relative (a second name for BCC, R120). -/
  | bhs (off : Byte)
  /-- BLE, R348, short relative. -/
  | ble (off : Byte)
  /-- BLO, R349, short relative (a second name for BCS, R120). -/
  | blo (off : Byte)
  /-- BLS, R350, short relative. -/
  | bls (off : Byte)
  /-- BLT, R351, short relative. -/
  | blt (off : Byte)
  /-- BMI, R352, short relative. -/
  | bmi (off : Byte)
  /-- BNE, R353, short relative. -/
  | bne (off : Byte)
  /-- BPL, R354, short relative. -/
  | bpl (off : Byte)
  /-- BRA, R355, short relative. -/
  | bra (off : Byte)
  /-- BRN, R356, short relative. -/
  | brn (off : Byte)
  /-- BSR, R357, short relative. -/
  | bsr (off : Byte)
  /-- BVC, R358, short relative. -/
  | bvc (off : Byte)
  /-- BVS, R359, short relative. -/
  | bvs (off : Byte)
  /-- JMP, R360, direct, indexed or extended. -/
  | jmp (m : Mem)
  /-- JSR, R361, direct, indexed or extended. -/
  | jsr (m : Mem)
  /-- LBRN, R363, long relative. -/
  | lbrn (off : Word)
  /-- LBHI, R364, long relative. -/
  | lbhi (off : Word)
  /-- LBLS, R365, long relative. -/
  | lbls (off : Word)
  /-- LBCC, R366, long relative. -/
  | lbcc (off : Word)
  /-- LBHS, R366, long relative (a second name for LBCC, R120). -/
  | lbhs (off : Word)
  /-- LBCS, R367, long relative. -/
  | lbcs (off : Word)
  /-- LBLO, R367, long relative (a second name for LBCS, R120). -/
  | lblo (off : Word)
  /-- LBNE, R368, long relative. -/
  | lbne (off : Word)
  /-- LBEQ, R369, long relative. -/
  | lbeq (off : Word)
  /-- LBVC, R370, long relative. -/
  | lbvc (off : Word)
  /-- LBVS, R371, long relative. -/
  | lbvs (off : Word)
  /-- LBPL, R372, long relative. -/
  | lbpl (off : Word)
  /-- LBMI, R373, long relative. -/
  | lbmi (off : Word)
  /-- LBGE, R374, long relative. -/
  | lbge (off : Word)
  /-- LBLT, R375, long relative. -/
  | lblt (off : Word)
  /-- LBGT, R376, long relative. -/
  | lbgt (off : Word)
  /-- LBLE, R377, long relative. -/
  | lble (off : Word)
  /-- LBRA, R378, long relative. -/
  | lbra (off : Word)
  /-- LBSR, R379, long relative. -/
  | lbsr (off : Word)
  /-- NOP, R380. -/
  | nop
  /-- RTS, R381. -/
  | rts
  /-- SWI, R390. -/
  | swi
  /-- SWI2, R391. -/
  | swi2
  /-- SWI3, R392. -/
  | swi3
  /-- RTI, R393. -/
  | rti
  /-- CWAI, R394, immediate 8. -/
  | cwai (n : Byte)
  /-- SYNC, R395. -/
  | sync
deriving DecidableEq, Repr

/-- The instruction a word decodes to: an alias row stands for its primary name, "a disassembler
prints the first" (R120). -/
def Instr.canonical : Instr → Instr
  | .abx => .abx
  | .adca src => .adca src
  | .adcb src => .adcb src
  | .adda src => .adda src
  | .addb src => .addb src
  | .addd src => .addd src
  | .clr m => .clr m
  | .clra => .clra
  | .clrb => .clrb
  | .cmpa src => .cmpa src
  | .cmpb src => .cmpb src
  | .cmpd src => .cmpd src
  | .cmps src => .cmps src
  | .cmpu src => .cmpu src
  | .cmpx src => .cmpx src
  | .cmpy src => .cmpy src
  | .daa => .daa
  | .dec m => .dec m
  | .deca => .deca
  | .decb => .decb
  | .inc m => .inc m
  | .inca => .inca
  | .incb => .incb
  | .mul => .mul
  | .neg m => .neg m
  | .nega => .nega
  | .negb => .negb
  | .sbca src => .sbca src
  | .sbcb src => .sbcb src
  | .sex => .sex
  | .suba src => .suba src
  | .subb src => .subb src
  | .subd src => .subd src
  | .tst m => .tst m
  | .tsta => .tsta
  | .tstb => .tstb
  | .anda src => .anda src
  | .andb src => .andb src
  | .andcc n => .andcc n
  | .asl m => .asl m
  | .asla => .asla
  | .aslb => .aslb
  | .asr m => .asr m
  | .asra => .asra
  | .asrb => .asrb
  | .bita src => .bita src
  | .bitb src => .bitb src
  | .com m => .com m
  | .coma => .coma
  | .comb => .comb
  | .eora src => .eora src
  | .eorb src => .eorb src
  | .lsl m => .asl m
  | .lsla => .asla
  | .lslb => .aslb
  | .lsr m => .lsr m
  | .lsra => .lsra
  | .lsrb => .lsrb
  | .ora src => .ora src
  | .orb src => .orb src
  | .orcc n => .orcc n
  | .rol m => .rol m
  | .rola => .rola
  | .rolb => .rolb
  | .ror m => .ror m
  | .rora => .rora
  | .rorb => .rorb
  | .lda src => .lda src
  | .ldb src => .ldb src
  | .ldd src => .ldd src
  | .lds src => .lds src
  | .ldu src => .ldu src
  | .ldx src => .ldx src
  | .ldy src => .ldy src
  | .leax p => .leax p
  | .leay p => .leay p
  | .leas p => .leas p
  | .leau p => .leau p
  | .sta m => .sta m
  | .stb m => .stb m
  | .std m => .std m
  | .sts m => .sts m
  | .stu m => .stu m
  | .stx m => .stx m
  | .sty m => .sty m
  | .tfr r1 r2 => .tfr r1 r2
  | .exg r1 r2 => .exg r1 r2
  | .pshs mask => .pshs mask
  | .pshu mask => .pshu mask
  | .puls mask => .puls mask
  | .pulu mask => .pulu mask
  | .bcc off => .bcc off
  | .bcs off => .bcs off
  | .beq off => .beq off
  | .bge off => .bge off
  | .bgt off => .bgt off
  | .bhi off => .bhi off
  | .bhs off => .bcc off
  | .ble off => .ble off
  | .blo off => .bcs off
  | .bls off => .bls off
  | .blt off => .blt off
  | .bmi off => .bmi off
  | .bne off => .bne off
  | .bpl off => .bpl off
  | .bra off => .bra off
  | .brn off => .brn off
  | .bsr off => .bsr off
  | .bvc off => .bvc off
  | .bvs off => .bvs off
  | .jmp m => .jmp m
  | .jsr m => .jsr m
  | .lbrn off => .lbrn off
  | .lbhi off => .lbhi off
  | .lbls off => .lbls off
  | .lbcc off => .lbcc off
  | .lbhs off => .lbcc off
  | .lbcs off => .lbcs off
  | .lblo off => .lbcs off
  | .lbne off => .lbne off
  | .lbeq off => .lbeq off
  | .lbvc off => .lbvc off
  | .lbvs off => .lbvs off
  | .lbpl off => .lbpl off
  | .lbmi off => .lbmi off
  | .lbge off => .lbge off
  | .lblt off => .lblt off
  | .lbgt off => .lbgt off
  | .lble off => .lble off
  | .lbra off => .lbra off
  | .lbsr off => .lbsr off
  | .nop => .nop
  | .rts => .rts
  | .swi => .swi
  | .swi2 => .swi2
  | .swi3 => .swi3
  | .rti => .rti
  | .cwai n => .cwai n
  | .sync => .sync

end Sys2Proof
end

