-- ==== Sys2Proof/Config.lean ====
section
/-! DEFINITION. The parameters the spec leaves to the model (spec/00_scope.md R6) and what it leaves free, the
`UNSPEC(n)` values of R8. A free value is a constant without a body, so that nothing can be proved of it. -/

namespace Sys2Proof.Config

/-! ## Parameters -/

/-- Parameter `UNDEF_OPCODE_POLICY` (R6, D7): what a step does on an opcode the tables do not list. -/
inductive UndefPolicy where
  | refuse
  | fault
deriving DecidableEq, Repr

/-- Parameter `FLAG_POLICY` (R6, R205, D10). -/
inductive FlagPolicy where
  /-- Every open flag is a draw. -/
  | safe
  /-- The flags general knowledge calls "not affected" are unchanged; the others are draws. -/
  | motorola
deriving DecidableEq, Repr

/-- Parameter `NMI_ARM_SET` (R6, R38, R404, D12): for each instruction that writes S explicitly, does it arm NMI? -/
structure NmiArmSet where
  lds : Bool
  leas : Bool
  /-- TFR with destination S. -/
  tfr : Bool
  /-- EXG with S as either operand. -/
  exg : Bool
  /-- PULU with the S bit set. -/
  pulu : Bool
deriving DecidableEq, Repr

/-- Every explicit write of S: the default of D12. -/
def NmiArmSet.all : NmiArmSet := { lds := true, leas := true, tfr := true, exg := true, pulu := true }

/-- The three policies of R6. -/
structure Policies where
  undefOpcode : UndefPolicy
  flags : FlagPolicy
  nmiArm : NmiArmSet
deriving DecidableEq, Repr

/-- The defaults of R6. -/
def Policies.default : Policies := { undefOpcode := .refuse, flags := .safe, nmiArm := NmiArmSet.all }

/-! ## Devices -/

/-- The `d` of `Device(d)` (R6): which device, and whether its reads have side effects (R68). -/
structure Device where
  id : Nat
  sensitive : Bool
deriving DecidableEq, Repr

/-- How an access comes about, as far as R68 tells apart. -/
inductive Access where
  /-- The operand of a plain load or store. -/
  | plain
  /-- Any other: an operand of another instruction, a pointer, the stack, a vector, a fetch. -/
  | other
deriving DecidableEq, Repr

/-- A device whose reads have side effects takes plain loads and stores only; any other device takes every access
(R68, D16). -/
def Device.allows (d : Device) : Access → Bool
  | .plain => true
  | .other => !d.sensitive

/-- One access of a byte that reached a device: a read, or a write of a value. -/
structure DeviceAccess where
  device : Device
  addr : Word
  wrote : Option Byte
deriving DecidableEq, Repr

/-- The byte a device gives when it is read at an address (R4, R70: the platform's). It may depend on every access that
reached a device before, `history`, the latest first (log 34). -/
opaque deviceByte (history : List DeviceAccess) (d : Device) (addr : Word) : Byte

/-! ## Free values -/

/-- The open flags, one constructor per row of R205's table. -/
inductive OpenFlag where
  /-- H after ADDD. -/
  | adddH
  /-- H after SUBa, SBCa, CMPa. -/
  | sub8H
  /-- H after NEG d, NEGa. -/
  | negH
  /-- H after ASL/LSL d, ASLa/LSLa. -/
  | aslH
  /-- H after ASR d, ASRa. -/
  | asrH
  /-- V after ASR d, ASRa. -/
  | asrV
  /-- V after LSR d, LSRa. -/
  | lsrV
  /-- V after ROR d, RORa. -/
  | rorV
  /-- V after DAA. -/
  | daaV
deriving DecidableEq, Repr

/-- R205's column `FLAG_POLICY = motorola`: is the flag unchanged? -/
def OpenFlag.unchangedByMotorola : OpenFlag → Bool
  | .adddH => true
  | .sub8H => false
  | .negH => false
  | .aslH => false
  | .asrH => false
  | .asrV => true
  | .lsrV => true
  | .rorV => true
  | .daaV => false

/-- Is the flag a draw (R205)? -/
def FlagPolicy.draws : FlagPolicy → OpenFlag → Bool
  | .safe, _ => true
  | .motorola, f => !f.unchangedByMotorola

/-- The value of open flag `f` at draw number `draw` (R205). It may depend on `cc`, CC before the instruction
wrote any flag, and on the operands `x`, `y`. DESIGN CHOICE (log 11): it depends on nothing else. -/
opaque openFlag (f : OpenFlag) (draw : Nat) (cc : Byte) (x y : Word) : Bool

/-- The 16-bit register `r2` after TFR from the 8-bit register `r1` holding `v` (R311, D9). DESIGN CHOICE (log 12): it depends on
these and the draw number alone. -/
opaque openTransfer (r1 r2 : AnyReg) (draw : Nat) (v : Byte) : Word

end Sys2Proof.Config
end

