-- ==== Sys2Proof/Machine/Bits.lean ====
section
/-! DEFINITION. Byte order and extension of operands (spec/00_scope.md R7, spec/20_memory.md R62). -/

namespace Sys2Proof

/-- `hi : lo`, the 16-bit value whose more significant byte is `hi` (R7, R62). -/
def be16 (hi lo : Byte) : Word := hi ++ lo

/-- Bits 15 to 8 (R7). -/
def hi8 (w : Word) : Byte := w.extractLsb' 8 8

/-- Bits 7 to 0 (R7). -/
def lo8 (w : Word) : Byte := w.extractLsb' 0 8

/-- `sext16_from8` (R7). -/
def sext8 (b : Byte) : Word := b.signExtend 16

/-- `sext16_from5` (R7). -/
def sext5 (n : BitVec 5) : Word := n.signExtend 16

/-- `zext16` (R7). -/
def zext8 (b : Byte) : Word := b.setWidth 16

end Sys2Proof
end

