-- ==== Sys2Proof/Machine/State.lean ====
section
/-! DEFINITION. The state of the machine as plain data (spec/10_state.md), the reasons a step can stop, and the
state right after reset (R41). -/

namespace Sys2Proof.Machine

/-- The bits of CC (R27). -/
inductive Flag where
  /-- Entire, bit 7 (R28). -/
  | e
  /-- FIRQ mask, bit 6 (R29). -/
  | f
  /-- Half carry, bit 5 (R30). -/
  | h
  /-- IRQ mask, bit 4 (R31). -/
  | i
  /-- Negative, bit 3 (R32). -/
  | n
  /-- Zero, bit 2 (R33). -/
  | z
  /-- Overflow, bit 1 (R34). -/
  | v
  /-- Carry or borrow, bit 0 (R35). -/
  | c
deriving DecidableEq, Repr

/-- `run_state` (R40). -/
inductive RunState where
  | running
  | cwaiWait
  | syncWait
deriving DecidableEq, Repr

/-- What stands at an address (parameter `MemMap`, R6, R70). -/
inductive MemKind where
  | ram
  | rom
  | device (d : Config.Device)
  | unmapped
deriving DecidableEq, Repr

/-- A run of `size` addresses from `base` on with one kind of memory (parameter `MemMap`; log 6). -/
structure Region where
  base : Nat
  size : Nat
  kind : MemKind
deriving DecidableEq, Repr

/-- The inputs the environment supplies at one instruction boundary (parameter `IrqIn`, R403). -/
structure Inputs where
  /-- An active transition of NMI occurred since the last boundary. -/
  nmiEdge : Bool
  firqLevel : Bool
  irqLevel : Bool
  resetLevel : Bool
deriving DecidableEq, Repr

/-- Memory: addresses with their bytes, in canonical form (see `Memory.wf`). An address that is not listed
holds no value (R70, D22; log 5). -/
abbrev Memory := List Host.Cell

/-- The state. D is the view `A : B` (R22) and has no field. -/
structure State where
  /-- A, R20. -/
  a : Byte
  /-- B, R21. -/
  b : Byte
  /-- X, R23. -/
  x : Word
  /-- Y, R23. -/
  y : Word
  /-- U, R24. -/
  u : Word
  /-- S, R24. -/
  s : Word
  /-- PC, R25. -/
  pc : Word
  /-- DP, R26. -/
  dp : Byte
  /-- CC, R27. -/
  cc : Byte
  /-- `nmi_armed`, R38. -/
  nmiArmed : Bool
  /-- `nmi_pending`, R39. -/
  nmiPending : Bool
  /-- `run_state`, R40. -/
  runState : RunState
  /-- The memory, R37. -/
  mem : Memory
  /-- Parameter `MemMap`, R6: the first region that holds an address gives its kind; an address in no
  region is RAM (log 6). No step changes it. -/
  memMap : List Region
  /-- Parameter `IrqIn`, R6: the samples of the boundaries to come, the next one first; after the last, every
  input is inactive (log 8). -/
  inputs : List Inputs
  /-- Parameters `UNDEF_OPCODE_POLICY`, `FLAG_POLICY` and `NMI_ARM_SET`, R6. No step changes them. -/
  policies : Config.Policies
  /-- The MODEL's own: every access that reached a device, the latest first (log 34). -/
  deviceLog : List Config.DeviceAccess
  /-- The MODEL's own: how many free flags and transfers have been drawn (log 28). -/
  draws : Nat
deriving DecidableEq, Repr

/-- Why a step stops with a fault. Each ends the run without a next state, which is SAFE: the chip goes on
with a value or an effect the spec does not give. -/
inductive Fault where
  /-- Raised by any read, fetch or vector read of a byte that was never written and is not in `InitMem`
  (R70, D22). Safe. -/
  | unwritten (addr : Word)
  /-- Raised by a read or write of an address where nothing stands (R70, D4). Safe. -/
  | unmapped (addr : Word)
  /-- Raised by a write to ROM (R70, D4). Safe. -/
  | romWrite (addr : Word)
  /-- Raised by the fetch of an opcode the tables do not list, under `UNDEF_OPCODE_POLICY = fault` (D7, R114). Safe. -/
  | undefinedOpcode
deriving DecidableEq, Repr

/-- Why a step has no meaning. Each ends the run without a next state, which is SAFE. -/
inductive Refusal where
  /-- An instruction without a meaning in this model; no arm of `exec` answers it. -/
  | notModelled (mnemonic : String)
  /-- Raised by the fetch of an opcode the tables do not list, a repeated prefix included, under
  `UNDEF_OPCODE_POLICY = refuse` (R114, R115, D7). Safe. -/
  | undefinedOpcode
  /-- Raised by the decoder, and by an ill-formed indexed operand: a postbyte that selects no form (R161). Safe. -/
  | undefinedPostbyte
  /-- Raised by the decoder: a TFR or EXG register code that names no register (R311 to R313). Safe. -/
  | undefinedRegisterCode
  /-- Raised by TFR from a 16-bit to an 8-bit register (R311). Safe. -/
  | tfrSize
  /-- Raised by EXG of registers of unequal size (R312). Safe. -/
  | exgSize
  /-- Raised by an access, other than a plain load or store, to a device whose reads have side effects (R68, D16). Safe. -/
  | device (addr : Word)
deriving DecidableEq, Repr

/-- Right after reset (R41): F and I set, DP zero, NMI disarmed and not pending, running. The spec gives A, B, X, Y, U,
S and the other bits of CC no value: zero here (log 4). PC is the contents of the reset vector; this memory
lists nothing, and PC is 0000H (log 3). -/
def State.reset : State where
  a := 0
  b := 0
  x := 0
  y := 0
  u := 0
  s := 0
  pc := 0
  dp := 0
  cc := 0x50
  nmiArmed := false
  nmiPending := false
  runState := .running
  mem := []
  memMap := []
  inputs := []
  policies := Config.Policies.default
  deviceLog := []
  draws := 0

end Sys2Proof.Machine
end

