-- ==== Sys2Proof/Machine/Flags.lean ====
section
/-! DEFINITION. The bits of CC, the arithmetic laws R200 to R205 and the flag computations of every
instruction (spec/41_arithmetic.md, spec/42_logic_shift.md). -/

namespace Sys2Proof.Machine

/-! ## The bits of CC -/

/-- The bit of CC a flag is (R27). -/
def Flag.bit : Flag → Nat
  | .e => 7
  | .f => 6
  | .h => 5
  | .i => 4
  | .n => 3
  | .z => 2
  | .v => 1
  | .c => 0

/-- A flag's bit in a CC value (R27). -/
def ccGet (g : Flag) (cc : Byte) : Bool := cc.getLsbD g.bit

/-- A CC value with one flag's bit written. -/
def ccPut (g : Flag) (b : Bool) (cc : Byte) : Byte :=
  if b then cc ||| (1#8 <<< g.bit) else cc &&& ~~~(1#8 <<< g.bit)

/-- The flag `CC.g` of a state (R8, R27). -/
def State.flag (g : Flag) (s : State) : Bool := ccGet g s.cc

/-- `CC.g <- b` (R8). -/
def State.setFlag (g : Flag) (b : Bool) (s : State) : State := { s with cc := ccPut g b s.cc }

/-- The value of a flag as a number, 0 or 1. -/
def bit01 (b : Bool) : Nat := if b then 1 else 0

/-! ## The arithmetic laws -/

/-- A result with the four flags an adder reports. -/
structure Alu (w : Nat) where
  r : BitVec w
  n : Bool
  z : Bool
  v : Bool
  c : Bool
deriving DecidableEq, Repr

/-- N copies the top bit (R32, R204). -/
def isNeg {w : Nat} (v : BitVec w) : Bool := v.msb

/-- Z is 1 when every bit of the result is 0 (R33, R204). -/
def isZero {w : Nat} (v : BitVec w) : Bool := v == 0

/-- `add8` without H (R200): sum of two bytes and a carry-in. -/
def add8 (a s : Byte) (c : Bool) : Alu 8 :=
  let sum : Nat := a.toNat + s.toNat + bit01 c
  let r := BitVec.ofNat 8 sum
  { r := r, n := isNeg r, z := isZero r, v := a.msb == s.msb && r.msb != a.msb, c := decide (sum > 255) }

/-- H of `add8`: the carry out of bit 3 (R200). -/
def halfCarry (a s : Byte) (c : Bool) : Bool :=
  decide (a.toNat % 16 + s.toNat % 16 + bit01 c > 15)

/-- `sub8` (R201): difference of two bytes and a borrow-in; C is the borrow. -/
def sub8 (a s : Byte) (b : Bool) : Alu 8 :=
  let diff : Int := (a.toNat : Int) - s.toNat - bit01 b
  let r := BitVec.ofInt 8 diff
  { r := r, n := isNeg r, z := isZero r, v := a.msb != s.msb && r.msb != a.msb, c := decide (diff < 0) }

/-- `add16` (R202). -/
def add16 (a s : Word) : Alu 16 :=
  let sum : Nat := a.toNat + s.toNat
  let r := BitVec.ofNat 16 sum
  { r := r, n := isNeg r, z := isZero r, v := a.msb == s.msb && r.msb != a.msb, c := decide (sum > 65535) }

/-- `sub16` (R203). -/
def sub16 (a s : Word) : Alu 16 :=
  let diff : Int := (a.toNat : Int) - s.toNat
  let r := BitVec.ofInt 16 diff
  { r := r, n := isNeg r, z := isZero r, v := a.msb != s.msb && r.msb != a.msb, c := decide (diff < 0) }

/-- `MUL`: the unsigned 16-bit product (R226). -/
def mul8 (a b : Byte) : Word := BitVec.ofNat 16 (a.toNat * b.toNat)

/-! ## Writing flags -/

/-- N and Z from a value (`nz8`, `nz16`, R204). -/
def State.setNZ {w : Nat} (v : BitVec w) (s : State) : State :=
  (s.setFlag .n (isNeg v)).setFlag .z (isZero v)

/-- The flag law of the logical rows, loads and stores (R259): N, Z from the value, V cleared. -/
def State.setNZ0 {w : Nat} (v : BitVec w) (s : State) : State := (s.setNZ v).setFlag .v false

/-- N, Z, V, C from an adder (R200 to R203). -/
def State.setNZVC {w : Nat} (o : Alu w) (s : State) : State :=
  (((s.setFlag .n o.n).setFlag .z o.z).setFlag .v o.v).setFlag .c o.c

/-- Write an open flag, `open(R205)`: a draw `UNSPEC(1)`, or unchanged, as `FLAG_POLICY` says (R8, R205). `cc` is CC
before the instruction wrote any flag, the carry-in and half carry among it; DESIGN CHOICE (log 11): the draw depends on
`cc`, the operands `x`, `y` and its number alone. -/
def State.drawFlag (g : Flag) (w : Config.OpenFlag) (cc : Byte) (x y : Word) (s : State) : State :=
  let draw := s.policies.flags.draws w
  { s with
    cc := if draw then ccPut g (Config.openFlag w s.draws cc x y) s.cc else s.cc
    draws := if draw then s.draws + 1 else s.draws }

/-! ## Operations on a byte with their flags: the new byte and the state with the flags written -/

/-- NEG, NEGa (R227, R228): `0 - v`; H open. -/
def negate (v : Byte) (s : State) : Byte × State :=
  let o := sub8 0 v false
  (o.r, (s.setNZVC o).drawFlag .h .negH s.cc (zext8 v) 0)

/-- COM, COMa (R267, R268): V cleared, C set. -/
def complement (v : Byte) (s : State) : Byte × State :=
  let r := v ^^^ 0xFF#8
  (r, (s.setNZ0 r).setFlag .c true)

/-- INC, INCa (R224, R225): V at 7FH; C unchanged. -/
def increment (v : Byte) (s : State) : Byte × State :=
  let r := v + 1#8
  (r, (s.setNZ r).setFlag .v (v == 0x7F#8))

/-- DEC, DECa (R222, R223): V at 80H; C unchanged. -/
def decrement (v : Byte) (s : State) : Byte × State :=
  let r := v - 1#8
  (r, (s.setNZ r).setFlag .v (v == 0x80#8))

/-- ASL, ASLa, LSL, LSLa (R262, R263, R270, R271): C gets bit 7, V is v[7] xor v[6]; H open. -/
def shiftLeft (v : Byte) (s : State) : Byte × State :=
  let r := v <<< 1
  (r, (((s.setNZ r).setFlag .v (v.getLsbD 7 ^^ v.getLsbD 6)).setFlag .c (v.getLsbD 7)).drawFlag .h .aslH s.cc (zext8 v) 0)

/-- ASR, ASRa (R264, R265): bit 7 kept, C gets bit 0; V and H open. -/
def shiftRightArith (v : Byte) (s : State) : Byte × State :=
  let r := (v >>> 1) ||| (v &&& 0x80#8)
  (r, (((s.setNZ r).setFlag .c (v.getLsbD 0)).drawFlag .v .asrV s.cc (zext8 v) 0).drawFlag .h .asrH s.cc (zext8 v) 0)

/-- LSR, LSRa (R272, R273): N cleared, C gets bit 0; V open. -/
def shiftRight (v : Byte) (s : State) : Byte × State :=
  let r := v >>> 1
  (r, (((s.setFlag .n false).setFlag .z (isZero r)).setFlag .c (v.getLsbD 0)).drawFlag .v .lsrV s.cc (zext8 v) 0)

/-- ROL, ROLa (R276, R277): the old C enters bit 0; C gets bit 7; V is v[7] xor v[6]. -/
def rotateLeft (v : Byte) (s : State) : Byte × State :=
  let r := (v <<< 1) ||| BitVec.ofNat 8 (bit01 (s.flag .c))
  (r, ((s.setNZ r).setFlag .v (v.getLsbD 7 ^^ v.getLsbD 6)).setFlag .c (v.getLsbD 7))

/-- ROR, RORa (R278, R279): the old C enters bit 7; C gets bit 0; V open. -/
def rotateRight (v : Byte) (s : State) : Byte × State :=
  let r := (v >>> 1) ||| (BitVec.ofNat 8 (bit01 (s.flag .c)) <<< 7)
  (r, ((s.setNZ r).setFlag .c (v.getLsbD 0)).drawFlag .v .rorV s.cc (zext8 v) 0)

/-! ## Operations of a register and an operand -/

/-- ADCa (R211): carry-in C. -/
def addWithCarry (a v : Byte) (s : State) : Byte × State :=
  let o := add8 a v (s.flag .c)
  (o.r, (s.setNZVC o).setFlag .h (halfCarry a v (s.flag .c)))

/-- ADDa (R212). -/
def addNoCarry (a v : Byte) (s : State) : Byte × State :=
  let o := add8 a v false
  (o.r, (s.setNZVC o).setFlag .h (halfCarry a v false))

/-- SUBa, CMPa (R231, R216): H open. -/
def subtract (a v : Byte) (s : State) : Byte × State :=
  let o := sub8 a v false
  (o.r, (s.setNZVC o).drawFlag .h .sub8H s.cc (zext8 a) (zext8 v))

/-- SBCa (R229): borrow-in C; H open. -/
def subtractWithCarry (a v : Byte) (s : State) : Byte × State :=
  let o := sub8 a v (s.flag .c)
  (o.r, (s.setNZVC o).drawFlag .h .sub8H s.cc (zext8 a) (zext8 v))

/-- ANDa, BITa (R260, R266, R259). -/
def andByte (a v : Byte) (s : State) : Byte × State := (a &&& v, s.setNZ0 (a &&& v))

/-- ORa (R274, R259). -/
def orByte (a v : Byte) (s : State) : Byte × State := (a ||| v, s.setNZ0 (a ||| v))

/-- EORa (R269, R259). -/
def xorByte (a v : Byte) (s : State) : Byte × State := (a ^^^ v, s.setNZ0 (a ^^^ v))

/-- LDa (R300, R259). -/
def loadByte (_ v : Byte) (s : State) : Byte × State := (v, s.setNZ0 v)

/-- ADDD (R213): H open. -/
def addWord (a v : Word) (s : State) : Word × State :=
  let o := add16 a v
  (o.r, (s.setNZVC o).drawFlag .h .adddH s.cc a v)

/-- SUBD, CMPD, CMPS, CMPU, CMPX, CMPY (R232, R217 to R220): H unchanged. -/
def subtractWord (a v : Word) (s : State) : Word × State :=
  let o := sub16 a v
  (o.r, s.setNZVC o)

/-- LDD, LDS, LDU, LDX, LDY (R301 to R304, R259). -/
def loadWord (_ v : Word) (s : State) : Word × State := (v, s.setNZ0 v)

/-! ## Decimal adjust -/

/-- The low correction of DAA: 06H if H is set or A[3:0] > 9 (R221). -/
def daaLow (a : Byte) (h : Bool) : Nat := if h || decide (a.toNat % 16 > 9) then 0x06 else 0

/-- The high correction of DAA: 60H if C is set, or A[7:4] > 9, or A[7:4] > 8 and A[3:0] > 9 (R221). -/
def daaHigh (a : Byte) (c : Bool) : Nat :=
  if c || decide (a.toNat / 16 > 9) || (decide (a.toNat / 16 > 8) && decide (a.toNat % 16 > 9)) then 0x60 else 0

/-- The unbounded sum of DAA (R221). -/
def daaSum (a : Byte) (h c : Bool) : Nat := a.toNat + daaHigh a c + daaLow a h

/-- DAA on A (R221): N, Z from the new A; C never cleared; V open; H unchanged. -/
def decimalAdjust (a : Byte) (s : State) : Byte × State :=
  let sum := daaSum a (s.flag .h) (s.flag .c)
  let r := BitVec.ofNat 8 sum
  (r, ((s.setNZ r).setFlag .c (s.flag .c || decide (sum > 255))).drawFlag .v .daaV s.cc (zext8 a) 0)

end Sys2Proof.Machine
end

