-- ==== Sys2Proof/Machine/Ops.lean ====
section
/-! DEFINITION. The operations every instruction is made of: memory, registers, stacks, and taking an interrupt,
returning from one, and reset (spec/20_memory.md, spec/60_exceptions.md). -/

namespace Sys2Proof.Machine

/-- What an operation comes to: a value (with a state where it changes one), a fault or a refusal. -/
abbrev Result (α : Type) := Host.Outcome α Fault Refusal

/-- Go on with what an operation gave, unless it stopped. -/
def Result.andThen {α β : Type} (o : Result α) (f : α → Result β) : Result β :=
  match o with
  | .next x => f x
  | .fault r => .fault r
  | .refused r => .refused r

/-! ## Memory -/

/-- The canonical form: addresses strictly rising, all below 65536. An unlisted address holds no value, so no
entry can equal one. -/
abbrev Memory.wf (m : Memory) : Prop :=
  m.Pairwise (fun p q => p.1 < q.1) ∧ ∀ p ∈ m, p.1 < 65536

/-- The byte at an address, if it holds one. -/
def Memory.read (m : Memory) (addr : Nat) : Option Byte :=
  match m with
  | [] => none
  | (k, v) :: rest => if addr = k then some v else Memory.read rest addr

/-- Memory with the byte at one address written. -/
def Memory.write (m : Memory) (addr : Nat) (v : Byte) : Memory :=
  match m with
  | [] => [(addr, v)]
  | (k, w) :: rest =>
    if addr < k then (addr, v) :: (k, w) :: rest
    else if addr = k then (addr, v) :: rest
    else (k, w) :: Memory.write rest addr v

/-- What stands at an address: the first region that holds it; RAM where none does (R70; log 6). -/
def kindAt (regions : List Region) (addr : Nat) : MemKind :=
  match regions with
  | [] => .ram
  | g :: rest => if g.base ≤ addr ∧ addr < g.base + g.size then g.kind else kindAt rest addr

/-- The byte a state's memory holds at an address, whatever stands there: the view of one byte. -/
def State.byteAt (s : State) (addr : Word) : Option Byte := s.mem.read addr.toNat

/-- What stands at an address of a state. -/
def State.kind (s : State) (addr : Word) : MemKind := kindAt s.memMap addr.toNat

/-- Reading the byte at an address succeeds and gives `v`: RAM or ROM that holds it (R70). -/
def State.Reads (s : State) (addr : Word) (v : Byte) : Prop :=
  (s.kind addr = .ram ∨ s.kind addr = .rom) ∧ s.byteAt addr = some v

/-- Reading two bytes, high byte first (R63). -/
def State.Reads16 (s : State) (addr : Word) (hi lo : Byte) : Prop :=
  s.Reads addr hi ∧ s.Reads (addr + 1#16) lo

/-- Writing the byte at an address succeeds: RAM (R70). -/
def State.Writes (s : State) (addr : Word) : Prop := s.kind addr = .ram

/-- A state with another list of device accesses. -/
def State.withLog (log : List Config.DeviceAccess) (s : State) : State := { s with deviceLog := log }

/-- A state in which one more access has reached a device. -/
def State.toDevice (d : Config.Device) (addr : Word) (wrote : Option Byte) (s : State) : State :=
  s.withLog (⟨d, addr, wrote⟩ :: s.deviceLog)

/-- `MemRead(addr, 1)` of ordinary memory: the byte, if it holds one (R63, R70). -/
def readHeld (addr : Word) (s : State) : Result (Byte × State) :=
  match s.byteAt addr with
  | some v => .next (v, s)
  | none => .fault (.unwritten addr)

/-- `MemRead(addr, 1)`, with the state after it (R63, R68, R70): a device gives a free value, where it takes the access
(log 6, log 34). -/
def read8 (acc : Config.Access) (addr : Word) (s : State) : Result (Byte × State) :=
  match s.kind addr with
  | .device d =>
    if d.allows acc then .next (Config.deviceByte s.deviceLog d addr, s.toDevice d addr none)
    else .refused (.device addr)
  | .unmapped => .fault (.unmapped addr)
  | .ram => readHeld addr s
  | .rom => readHeld addr s

/-- `MemRead(addr, 2)`: the high byte at the lower address, read first; `addr + 1` modulo 65536 (R63, R65). -/
def read16 (acc : Config.Access) (addr : Word) (s : State) : Result (Word × State) :=
  (read8 acc addr s).andThen fun (hi, t) => (read8 acc (addr + 1#16) t).andThen fun (lo, u) => .next (be16 hi lo, u)

/-- A state with one byte of memory written. -/
def State.poke (addr : Word) (v : Byte) (s : State) : State := { s with mem := s.mem.write addr.toNat v }

/-- `MemWrite(addr, 1, v)` (R63, R68, R70): what a device makes of the byte is the device's (R4). -/
def write8 (acc : Config.Access) (addr : Word) (v : Byte) (s : State) : Result State :=
  match s.kind addr with
  | .device d => if d.allows acc then .next (s.toDevice d addr (some v)) else .refused (.device addr)
  | .unmapped => .fault (.unmapped addr)
  | .rom => .fault (.romWrite addr)
  | .ram => .next (s.poke addr v)

/-- `MemWrite(addr, 2, v)` (R63, R65). -/
def write16 (acc : Config.Access) (addr : Word) (v : Word) (s : State) : Result State :=
  (write8 acc addr (hi8 v) s).andThen (write8 acc (addr + 1#16) (lo8 v))

/-- `Fetch8()` (R78). -/
def fetch8 (s : State) : Result (Byte × State) :=
  (read8 .other s.pc s).andThen fun (v, t) => .next (v, { t with pc := t.pc + 1#16 })

/-! ## Registers -/

/-- D, the view `A : B` (R22). -/
def State.d (s : State) : Word := be16 s.a s.b

/-- A 16-bit register (R313). -/
def State.get16 (r : Reg16) (s : State) : Word :=
  match r with
  | .d => s.d
  | .x => s.x
  | .y => s.y
  | .u => s.u
  | .s => s.s
  | .pc => s.pc

/-- Write a 16-bit register; writing D writes A and B (R22). -/
def State.set16 (r : Reg16) (v : Word) (s : State) : State :=
  match r with
  | .d => { s with a := hi8 v, b := lo8 v }
  | .x => { s with x := v }
  | .y => { s with y := v }
  | .u => { s with u := v }
  | .s => { s with s := v }
  | .pc => { s with pc := v }

/-- An 8-bit register (R313). -/
def State.get8 (r : Reg8) (s : State) : Byte :=
  match r with
  | .a => s.a
  | .b => s.b
  | .cc => s.cc
  | .dp => s.dp

/-- Write an 8-bit register. -/
def State.set8 (r : Reg8) (v : Byte) (s : State) : State :=
  match r with
  | .a => { s with a := v }
  | .b => { s with b := v }
  | .cc => { s with cc := v }
  | .dp => { s with dp := v }

/-- An index register (R146). -/
def State.getIndex (r : IndexReg) (s : State) : Word :=
  match r with
  | .x => s.x
  | .y => s.y
  | .u => s.u
  | .s => s.s

/-- Write an index register. An automatic increment or decrement of S does not arm NMI (R38, D12). -/
def State.setIndex (r : IndexReg) (v : Word) (s : State) : State :=
  match r with
  | .x => { s with x := v }
  | .y => { s with y := v }
  | .u => { s with u := v }
  | .s => { s with s := v }

/-- S is explicitly written: `nmi_armed <- 1` if the writing instruction is in `NMI_ARM_SET` (R38, R404). -/
def State.armNmi (writer : Config.NmiArmSet → Bool) (s : State) : State :=
  { s with nmiArmed := s.nmiArmed || writer s.policies.nmiArm }

/-! ## Stacks -/

/-- The two stack pointers (R24). -/
inductive StackReg where
  | s
  | u
deriving DecidableEq, Repr

/-- A stack pointer. -/
def State.sp (r : StackReg) (st : State) : Word :=
  match r with
  | .s => st.s
  | .u => st.u

/-- Write a stack pointer. -/
def State.setSp (r : StackReg) (v : Word) (st : State) : State :=
  match r with
  | .s => { st with s := v }
  | .u => { st with u := v }

/-- The other stack pointer (R318). -/
def StackReg.other : StackReg → StackReg
  | .s => .u
  | .u => .s

/-- `Push8` (R77): decrement, then store. -/
def push8 (r : StackReg) (v : Byte) (s : State) : Result State :=
  write8 .other (s.sp r - 1#16) v (s.setSp r (s.sp r - 1#16))

/-- `Push16` (R77): the low byte first. -/
def push16 (r : StackReg) (v : Word) (s : State) : Result State :=
  (push8 r (lo8 v) s).andThen (push8 r (hi8 v))

/-- `Pull8` (R77): load, then increment. -/
def pull8 (r : StackReg) (s : State) : Result (Byte × State) :=
  (read8 .other (s.sp r) s).andThen fun (v, t) => .next (v, t.setSp r (t.sp r + 1#16))

/-- `Pull16` (R77): the high byte first. -/
def pull16 (r : StackReg) (s : State) : Result (Word × State) :=
  (pull8 r s).andThen fun (hi, s1) => (pull8 r s1).andThen fun (lo, s2) => .next (be16 hi lo, s2)

/-- What a bit of a push or pull postbyte selects (R107). -/
inductive StackItem where
  | cc | a | b | dp | x | y | other | pc
deriving DecidableEq, Repr

/-- The postbyte bit of an item (R107). -/
def StackItem.bit : StackItem → Nat
  | .cc => 0
  | .a => 1
  | .b => 2
  | .dp => 3
  | .x => 4
  | .y => 5
  | .other => 6
  | .pc => 7

/-- The pull order, bit 0 up to bit 7 (R318). -/
def pullOrder : List StackItem := [.cc, .a, .b, .dp, .x, .y, .other, .pc]

/-- The push order, bit 7 down to bit 0 (R318), the card's list {PC,U/S,Y,X,DP,B,A,CC}. -/
def pushOrder : List StackItem := [.pc, .other, .y, .x, .dp, .b, .a, .cc]

/-- Push one item on stack `r`: 16-bit registers by `Push16`, 8-bit registers by `Push8` (R318). -/
def pushItem (r : StackReg) (it : StackItem) (s : State) : Result State :=
  match it with
  | .cc => push8 r s.cc s
  | .a => push8 r s.a s
  | .b => push8 r s.b s
  | .dp => push8 r s.dp s
  | .x => push16 r s.x s
  | .y => push16 r s.y s
  | .other => push16 r (s.sp r.other) s
  | .pc => push16 r s.pc s

/-- Pull one item from stack `r` (R318). -/
def pullItem (r : StackReg) (it : StackItem) (s : State) : Result State :=
  match it with
  | .cc => (pull8 r s).andThen fun (v, t) => .next { t with cc := v }
  | .a => (pull8 r s).andThen fun (v, t) => .next { t with a := v }
  | .b => (pull8 r s).andThen fun (v, t) => .next { t with b := v }
  | .dp => (pull8 r s).andThen fun (v, t) => .next { t with dp := v }
  | .x => (pull16 r s).andThen fun (v, t) => .next { t with x := v }
  | .y => (pull16 r s).andThen fun (v, t) => .next { t with y := v }
  | .other => (pull16 r s).andThen fun (v, t) => .next (t.setSp r.other v)
  | .pc => (pull16 r s).andThen fun (v, t) => .next { t with pc := v }

/-- Push the items of a list that the postbyte selects (R318). -/
def pushItems (r : StackReg) (mask : Byte) (items : List StackItem) (s : State) : Result State :=
  match items with
  | [] => .next s
  | it :: rest =>
    if mask.getLsbD it.bit then (pushItem r it s).andThen (pushItems r mask rest)
    else pushItems r mask rest s

/-- Pull the items of a list that the postbyte selects (R318). -/
def pullItems (r : StackReg) (mask : Byte) (items : List StackItem) (s : State) : Result State :=
  match items with
  | [] => .next s
  | it :: rest =>
    if mask.getLsbD it.bit then (pullItem r it s).andThen (pullItems r mask rest)
    else pullItems r mask rest s

/-- Push every register a postbyte selects, in push order (R318). -/
def pushRegs (r : StackReg) (mask : Byte) (s : State) : Result State := pushItems r mask pushOrder s

/-- Pull every register a postbyte selects, in pull order (R318). -/
def pullRegs (r : StackReg) (mask : Byte) (s : State) : Result State := pullItems r mask pullOrder s

/-! ## Interrupts -/

/-- The vectored events other than reset (R400). -/
inductive Event where
  | nmi | swi | irq | firq | swi2 | swi3
deriving DecidableEq, Repr

/-- The vector of an event (R69, R412). -/
def Event.vector : Event → Word
  | .swi3 => 0xFFF2
  | .swi2 => 0xFFF4
  | .firq => 0xFFF6
  | .irq => 0xFFF8
  | .swi => 0xFFFA
  | .nmi => 0xFFFC

/-- The reset vector (R69, R412). -/
def resetVector : Word := 0xFFFE

/-- Does the event stack the entire register set (R400)? It is the value E takes before stacking (R411). -/
def Event.entire : Event → Bool
  | .nmi => true
  | .swi => true
  | .irq => true
  | .firq => false
  | .swi2 => true
  | .swi3 => true

/-- The registers an event stacks, as a push postbyte: all, or PC and CC (R409, R410, R415). -/
def Event.frameMask (ev : Event) : Byte := if ev.entire then 0xFF else 0x81

/-- The mask update of an event, after the stacking (R411). -/
def Event.setMasks (ev : Event) (s : State) : State :=
  match ev with
  | .nmi => (s.setFlag .f true).setFlag .i true
  | .swi => (s.setFlag .f true).setFlag .i true
  | .firq => (s.setFlag .f true).setFlag .i true
  | .irq => s.setFlag .i true
  | .swi2 => s
  | .swi3 => s

/-- Taking an NMI clears its latch (R404, R409). -/
def Event.clearLatch (ev : Event) (s : State) : State :=
  match ev with
  | .nmi => { s with nmiPending := false }
  | .swi => s
  | .irq => s
  | .firq => s
  | .swi2 => s
  | .swi3 => s

/-- Mask update, latch, and PC from the vector: what every entry ends with (R409 to R413). -/
def enterVector (ev : Event) (s : State) : Result State :=
  (read16 .other ev.vector (ev.clearLatch (ev.setMasks s))).andThen fun (pc, t) => .next { t with pc := pc }

/-- TAKING AN INTERRUPT, hardware or software (R390 to R392, R409, R410): E as the event has it, the registers of
`{regs}` stacked on S, the masks set, PC from the vector. -/
def takeInterrupt (ev : Event) (s : State) : Result State :=
  (pushRegs .s ev.frameMask (s.setFlag .e ev.entire)).andThen (enterVector ev)

/-- `enter_after_cwai` (R407, R419): the frame is already on the stack. -/
def enterAfterCwai (ev : Event) (s : State) : Result State :=
  enterVector ev { s with runState := .running }

/-- RETURN FROM AN INTERRUPT (R393): CC first; the E just pulled says whether PC alone or every other register
follows. -/
def returnFromInterrupt (s : State) : Result State :=
  (pullRegs .s 0x01 s).andThen fun t => pullRegs .s (if t.flag .e then 0xFE else 0x80) t

/-- The reset sequence (R450). Everything it does not name keeps what it held (R451). -/
def resetSequence (s : State) : Result State :=
  let t := { (s.setFlag .f true).setFlag .i true with
    dp := 0, nmiArmed := false, nmiPending := false, runState := .running }
  (read16 .other resetVector t).andThen fun (pc, u) => .next { u with pc := pc }

end Sys2Proof.Machine
end

