-- ==== Sys2Proof/WellFormed.lean ====
section
/-! DEFINITION. Which terms of Syntax are instructions of the 6809: those with an encoding that the spec
gives a meaning. Operand ranges are in the types; what is left is checked here. -/

namespace Sys2Proof

/-- Increment and decrement by one have no indirect form: "Indexed indirect (p!=p++,--p only)"
(R153, R155, R161). -/
def IndexForm.allowsIndirect : IndexForm → Bool
  | .postInc1 => false
  | .preDec1 => false
  | .postInc2 => true
  | .preDec2 => true
  | .zero => true
  | .accB => true
  | .accA => true
  | .accD => true
  | .off8 _ => true
  | .off16 _ => true

/-- The indexed operand has a defined postbyte (R161, R165). -/
def Indexed.wellFormed : Indexed → Bool
  | .off5 _ _ => true
  | .form _ f ind => !ind || f.allowsIndirect
  | .pcr8 _ _ => true
  | .pcr16 _ _ => true
  | .extInd _ => true

/-- A memory operand is well formed when its postbyte is. -/
def Mem.wellFormed : Mem → Bool
  | .direct _ => true
  | .indexed p => p.wellFormed
  | .extended _ => true

/-- An 8-bit source is well formed when its memory operand is. -/
def Src8.wellFormed : Src8 → Bool
  | .imm _ => true
  | .mem m => m.wellFormed

/-- A 16-bit source is well formed when its memory operand is. -/
def Src16.wellFormed : Src16 → Bool
  | .imm _ => true
  | .mem m => m.wellFormed

/-- "Transfer (r1 size<=r2)" (R311): not from a 16-bit to an 8-bit register. -/
def AnyReg.transferable : AnyReg → AnyReg → Bool
  | .wide _, .byte _ => false
  | .wide _, .wide _ => true
  | .byte _, .wide _ => true
  | .byte _, .byte _ => true

/-- "Exchange (r1 size=r2)" (R312): two registers of one width. -/
def AnyReg.exchangeable : AnyReg → AnyReg → Bool
  | .wide _, .wide _ => true
  | .byte _, .byte _ => true
  | .wide _, .byte _ => false
  | .byte _, .wide _ => false

/-- The instruction's operands are ones the spec gives a meaning. -/
def Instr.wellFormed : Instr → Bool
  | .abx => true
  | .adca src => src.wellFormed
  | .adcb src => src.wellFormed
  | .adda src => src.wellFormed
  | .addb src => src.wellFormed
  | .addd src => src.wellFormed
  | .clr m => m.wellFormed
  | .clra => true
  | .clrb => true
  | .cmpa src => src.wellFormed
  | .cmpb src => src.wellFormed
  | .cmpd src => src.wellFormed
  | .cmps src => src.wellFormed
  | .cmpu src => src.wellFormed
  | .cmpx src => src.wellFormed
  | .cmpy src => src.wellFormed
  | .daa => true
  | .dec m => m.wellFormed
  | .deca => true
  | .decb => true
  | .inc m => m.wellFormed
  | .inca => true
  | .incb => true
  | .mul => true
  | .neg m => m.wellFormed
  | .nega => true
  | .negb => true
  | .sbca src => src.wellFormed
  | .sbcb src => src.wellFormed
  | .sex => true
  | .suba src => src.wellFormed
  | .subb src => src.wellFormed
  | .subd src => src.wellFormed
  | .tst m => m.wellFormed
  | .tsta => true
  | .tstb => true
  | .anda src => src.wellFormed
  | .andb src => src.wellFormed
  | .andcc _ => true
  | .asl m => m.wellFormed
  | .asla => true
  | .aslb => true
  | .asr m => m.wellFormed
  | .asra => true
  | .asrb => true
  | .bita src => src.wellFormed
  | .bitb src => src.wellFormed
  | .com m => m.wellFormed
  | .coma => true
  | .comb => true
  | .eora src => src.wellFormed
  | .eorb src => src.wellFormed
  | .lsl m => m.wellFormed
  | .lsla => true
  | .lslb => true
  | .lsr m => m.wellFormed
  | .lsra => true
  | .lsrb => true
  | .ora src => src.wellFormed
  | .orb src => src.wellFormed
  | .orcc _ => true
  | .rol m => m.wellFormed
  | .rola => true
  | .rolb => true
  | .ror m => m.wellFormed
  | .rora => true
  | .rorb => true
  | .lda src => src.wellFormed
  | .ldb src => src.wellFormed
  | .ldd src => src.wellFormed
  | .lds src => src.wellFormed
  | .ldu src => src.wellFormed
  | .ldx src => src.wellFormed
  | .ldy src => src.wellFormed
  | .leax p => p.wellFormed
  | .leay p => p.wellFormed
  | .leas p => p.wellFormed
  | .leau p => p.wellFormed
  | .sta m => m.wellFormed
  | .stb m => m.wellFormed
  | .std m => m.wellFormed
  | .sts m => m.wellFormed
  | .stu m => m.wellFormed
  | .stx m => m.wellFormed
  | .sty m => m.wellFormed
  | .tfr r1 r2 => r1.transferable r2
  | .exg r1 r2 => r1.exchangeable r2
  | .pshs _ => true
  | .pshu _ => true
  | .puls _ => true
  | .pulu _ => true
  | .bcc _ => true
  | .bcs _ => true
  | .beq _ => true
  | .bge _ => true
  | .bgt _ => true
  | .bhi _ => true
  | .bhs _ => true
  | .ble _ => true
  | .blo _ => true
  | .bls _ => true
  | .blt _ => true
  | .bmi _ => true
  | .bne _ => true
  | .bpl _ => true
  | .bra _ => true
  | .brn _ => true
  | .bsr _ => true
  | .bvc _ => true
  | .bvs _ => true
  | .jmp m => m.wellFormed
  | .jsr m => m.wellFormed
  | .lbrn _ => true
  | .lbhi _ => true
  | .lbls _ => true
  | .lbcc _ => true
  | .lbhs _ => true
  | .lbcs _ => true
  | .lblo _ => true
  | .lbne _ => true
  | .lbeq _ => true
  | .lbvc _ => true
  | .lbvs _ => true
  | .lbpl _ => true
  | .lbmi _ => true
  | .lbge _ => true
  | .lblt _ => true
  | .lbgt _ => true
  | .lble _ => true
  | .lbra _ => true
  | .lbsr _ => true
  | .nop => true
  | .rts => true
  | .swi => true
  | .swi2 => true
  | .swi3 => true
  | .rti => true
  | .cwai _ => true
  | .sync => true

/-- The instruction is well formed. -/
abbrev WellFormed (i : Instr) : Prop := i.wellFormed = true

end Sys2Proof
end

