-- ==== Sys2Proof/Machine/Operands.lean ====
section
/-! DEFINITION. Every operand form (spec/40_addressing_modes.md) and the shapes of the instructions over them. -/

namespace Sys2Proof.Machine

/-- The address a form gives without indirection, and the state after its automatic increment or decrement
(R148 to R156). -/
def formAddress (r : IndexReg) (f : IndexForm) (s : State) : Word × State :=
  match f with
  | .postInc1 => (s.getIndex r, s.setIndex r (s.getIndex r + 1#16))
  | .postInc2 => (s.getIndex r, s.setIndex r (s.getIndex r + 2#16))
  | .preDec1 => (s.getIndex r - 1#16, s.setIndex r (s.getIndex r - 1#16))
  | .preDec2 => (s.getIndex r - 2#16, s.setIndex r (s.getIndex r - 2#16))
  | .zero => (s.getIndex r, s)
  | .accB => (s.getIndex r + sext8 s.b, s)
  | .accA => (s.getIndex r + sext8 s.a, s)
  | .accD => (s.getIndex r + s.d, s)
  | .off8 n => (s.getIndex r + sext8 n, s)
  | .off16 nn => (s.getIndex r + nn, s)

/-- One level of indirection (R160): the address is the 16-bit pointer at `ea1`. -/
def indirect (ind : Bool) (ea1 : Word) (s : State) : Result (Word × State) :=
  if ind then read16 .other ea1 s else .next (ea1, s)

/-- The effective address of an indexed operand (R145 to R161). PC is already past the instruction, whose
last bytes are the postbyte and its offset (R157). A form with no defined postbyte is refused (R161). -/
def indexedAddress (p : Indexed) (s : State) : Result (Word × State) :=
  match p with
  | .off5 r n => .next (s.getIndex r + sext5 n, s)
  | .form r f ind =>
    if ind && !f.allowsIndirect then .refused .undefinedPostbyte
    else indirect ind (formAddress r f s).1 (formAddress r f s).2
  | .pcr8 n ind => indirect ind (s.pc + sext8 n) s
  | .pcr16 nn ind => indirect ind (s.pc + nn) s
  | .extInd nn => indirect true nn s

/-- `EA(mode)` (R140): direct (R143), indexed, extended (R144). -/
def effectiveAddress (m : Mem) (s : State) : Result (Word × State) :=
  match m with
  | .direct n => .next (be16 s.dp n, s)
  | .indexed p => indexedAddress p s
  | .extended nn => .next (nn, s)

/-- An 8-bit source operand (R140, R142), with the state after it was read. -/
def source8 (acc : Config.Access) (src : Src8) (s : State) : Result (Byte × State) :=
  match src with
  | .imm n => .next (n, s)
  | .mem m => (effectiveAddress m s).andThen fun (ea, t) => read8 acc ea t

/-- A 16-bit source operand. -/
def source16 (acc : Config.Access) (src : Src16) (s : State) : Result (Word × State) :=
  match src with
  | .imm nn => .next (nn, s)
  | .mem m => (effectiveAddress m s).andThen fun (ea, t) => read16 acc ea t

/-! ## Shapes. The register is read after the operand's address is computed (R162). -/

/-- `r <- r op s`, an 8-bit register and a source. -/
def operate8 (acc : Config.Access) (r : Reg8) (src : Src8) (op : Byte → Byte → State → Byte × State) (s : State) : Result State :=
  (source8 acc src s).andThen fun (v, t) =>
    let o := op (t.get8 r) v t
    .next (o.2.set8 r o.1)

/-- `r op s`, the result discarded. -/
def compare8 (r : Reg8) (src : Src8) (op : Byte → Byte → State → Byte × State) (s : State) : Result State :=
  (source8 .other src s).andThen fun (v, t) => .next (op (t.get8 r) v t).2

/-- `r <- r op s`, a 16-bit register and a source. -/
def operate16 (acc : Config.Access) (r : Reg16) (src : Src16) (op : Word → Word → State → Word × State) (s : State) : Result State :=
  (source16 acc src s).andThen fun (v, t) =>
    let o := op (t.get16 r) v t
    .next (o.2.set16 r o.1)

/-- `r op s`, the result discarded. -/
def compare16 (r : Reg16) (src : Src16) (op : Word → Word → State → Word × State) (s : State) : Result State :=
  (source16 .other src s).andThen fun (v, t) => .next (op (t.get16 r) v t).2

/-- `r <- op r`, an accumulator. -/
def modifyReg (r : Reg8) (op : Byte → State → Byte × State) (s : State) : Result State :=
  let o := op (s.get8 r) s
  .next (o.2.set8 r o.1)

/-- Read, modify, write a byte of memory: the same address (R66, R140). -/
def modifyMem (m : Mem) (op : Byte → State → Byte × State) (s : State) : Result State :=
  (effectiveAddress m s).andThen fun (ea, t) =>
    (read8 .other ea t).andThen fun (v, u) =>
      let o := op v u
      write8 .other ea o.1 o.2

/-- Store an 8-bit register, a plain store (R68); the flags reflect the value stored (R306, R259). -/
def store8 (r : Reg8) (m : Mem) (s : State) : Result State :=
  (effectiveAddress m s).andThen fun (ea, t) => write8 .plain ea (t.get8 r) (t.setNZ0 (t.get8 r))

/-- Store a 16-bit register, a plain store (R68, R307 to R310, R259). -/
def store16 (r : Reg16) (m : Mem) (s : State) : Result State :=
  (effectiveAddress m s).andThen fun (ea, t) => write16 .plain ea (t.get16 r) (t.setNZ0 (t.get16 r))

/-- Load an effective address (R305), without flags. -/
def loadAddress (r : Reg16) (p : Indexed) (s : State) : Result State :=
  (indexedAddress p s).andThen fun (ea, t) => .next (t.set16 r ea)

/-- Load an effective address into X or Y, writing Z (R305). -/
def loadAddressZ (r : Reg16) (p : Indexed) (s : State) : Result State :=
  (indexedAddress p s).andThen fun (ea, t) => .next ((t.set16 r ea).setFlag .z (isZero ea))

/-! ## Branches -/

/-- The branch conditions (R340). -/
inductive Cond where
  | hi | ls | cc | cs | ne | eq | vc | vs | pl | mi | ge | lt | gt | le
deriving DecidableEq, Repr

/-- "Taken when" (R340). -/
def Cond.holds (k : Cond) (s : State) : Bool :=
  match k with
  | .hi => !s.flag .c && !s.flag .z
  | .ls => s.flag .c || s.flag .z
  | .cc => !s.flag .c
  | .cs => s.flag .c
  | .ne => !s.flag .z
  | .eq => s.flag .z
  | .vc => !s.flag .v
  | .vs => s.flag .v
  | .pl => !s.flag .n
  | .mi => s.flag .n
  | .ge => s.flag .n == s.flag .v
  | .lt => s.flag .n != s.flag .v
  | .gt => !s.flag .z && (s.flag .n == s.flag .v)
  | .le => s.flag .z || (s.flag .n != s.flag .v)

/-- `pc <- trunc16(PC + off)`, PC being the address of the next instruction (R163, R164). -/
def branchTo (off : Word) (s : State) : State := { s with pc := s.pc + off }

/-- Template of a conditional branch (R339, R362). -/
def branchIf (k : Cond) (off : Word) (s : State) : Result State :=
  .next (if k.holds s then branchTo off s else s)

/-- Push the return address, then branch (R357, R379). -/
def branchSubroutine (off : Word) (s : State) : Result State :=
  (push16 .s s.pc s).andThen fun t => .next (branchTo off t)

end Sys2Proof.Machine
end

