-- ==== Sys2Proof/Machine/Arithmetic.lean ====
section
/-! DEFINITION. The meanings of the arithmetic instructions (spec/41_arithmetic.md). `s` is the state with PC
past the instruction (R25). -/

namespace Sys2Proof.Machine

/-- ABX, R210: "X=X+B", B unsigned. -/
def execAbx (s : State) : Result State :=
  .next { s with x := s.x + zext8 s.b }

/-- ADCA, R211: "a=a+s+C". -/
def execAdca (src : Src8) (s : State) : Result State :=
  operate8 .other .a src addWithCarry s

/-- ADCB, R211: "a=a+s+C". -/
def execAdcb (src : Src8) (s : State) : Result State :=
  operate8 .other .b src addWithCarry s

/-- ADDA, R212: "a=a+s". -/
def execAdda (src : Src8) (s : State) : Result State :=
  operate8 .other .a src addNoCarry s

/-- ADDB, R212: "a=a+s". -/
def execAddb (src : Src8) (s : State) : Result State :=
  operate8 .other .b src addNoCarry s

/-- ADDD, R213: "D=D+s". -/
def execAddd (src : Src16) (s : State) : Result State :=
  operate16 .other .d src addWord s

/-- CLR, R214: "d=0": N, V, C cleared, Z set; the read whose value the chip ignores is not modelled (D16, log 19). -/
def execClr (m : Mem) (s : State) : Result State :=
  (effectiveAddress m s).andThen fun (ea, t) => write8 .other ea 0 ((t.setNZ0 (0#8)).setFlag .c false)

/-- CLRA, R215: "a=0": N, V, C cleared, Z set. -/
def execClra (s : State) : Result State :=
  .next (((s.set8 .a 0).setNZ0 (0#8)).setFlag .c false)

/-- CLRB, R215: "a=0": N, V, C cleared, Z set. -/
def execClrb (s : State) : Result State :=
  .next (((s.set8 .b 0).setNZ0 (0#8)).setFlag .c false)

/-- CMPA, R216: "a-s", the accumulator unchanged. -/
def execCmpa (src : Src8) (s : State) : Result State :=
  compare8 .a src subtract s

/-- CMPB, R216: "a-s", the accumulator unchanged. -/
def execCmpb (src : Src8) (s : State) : Result State :=
  compare8 .b src subtract s

/-- CMPD, R217: "D-s", the register unchanged. -/
def execCmpd (src : Src16) (s : State) : Result State :=
  compare16 .d src subtractWord s

/-- CMPS, R218: "S-s", the register unchanged. -/
def execCmps (src : Src16) (s : State) : Result State :=
  compare16 .s src subtractWord s

/-- CMPU, R219: "U-s", the register unchanged. -/
def execCmpu (src : Src16) (s : State) : Result State :=
  compare16 .u src subtractWord s

/-- CMPX, R220: "X-s", the register unchanged. -/
def execCmpx (src : Src16) (s : State) : Result State :=
  compare16 .x src subtractWord s

/-- CMPY, R220: "Y-s", the register unchanged. -/
def execCmpy (src : Src16) (s : State) : Result State :=
  compare16 .y src subtractWord s

/-- DAA, R221: "A=BCD format". -/
def execDaa (s : State) : Result State :=
  modifyReg .a decimalAdjust s

/-- DEC, R222: memory operand. -/
def execDec (m : Mem) (s : State) : Result State :=
  modifyMem m decrement s

/-- DECA, R223: accumulator. -/
def execDeca (s : State) : Result State :=
  modifyReg .a decrement s

/-- DECB, R223: accumulator. -/
def execDecb (s : State) : Result State :=
  modifyReg .b decrement s

/-- INC, R224: memory operand. -/
def execInc (m : Mem) (s : State) : Result State :=
  modifyMem m increment s

/-- INCA, R225: accumulator. -/
def execInca (s : State) : Result State :=
  modifyReg .a increment s

/-- INCB, R225: accumulator. -/
def execIncb (s : State) : Result State :=
  modifyReg .b increment s

/-- MUL, R226: "D=A*B", unsigned; Z from the product, C its bit 7. -/
def execMul (s : State) : Result State :=
  let p := mul8 s.a s.b
  .next (((s.set16 .d p).setFlag .z (isZero p)).setFlag .c (p.getLsbD 7))

/-- NEG, R227: memory operand. -/
def execNeg (m : Mem) (s : State) : Result State :=
  modifyMem m negate s

/-- NEGA, R228: accumulator. -/
def execNega (s : State) : Result State :=
  modifyReg .a negate s

/-- NEGB, R228: accumulator. -/
def execNegb (s : State) : Result State :=
  modifyReg .b negate s

/-- SBCA, R229: "a=a-s-C". -/
def execSbca (src : Src8) (s : State) : Result State :=
  operate8 .other .a src subtractWithCarry s

/-- SBCB, R229: "a=a-s-C". -/
def execSbcb (src : Src8) (s : State) : Result State :=
  operate8 .other .b src subtractWithCarry s

/-- SEX, R230: A gets FFH or 00H by B[7]; N and Z of the new D. -/
def execSex (s : State) : Result State :=
  let hi : Byte := if s.b.getLsbD 7 then 0xFF else 0x00
  .next ((s.set8 .a hi).setNZ (be16 hi s.b))

/-- SUBA, R231: "a=a-s". -/
def execSuba (src : Src8) (s : State) : Result State :=
  operate8 .other .a src subtract s

/-- SUBB, R231: "a=a-s". -/
def execSubb (src : Src8) (s : State) : Result State :=
  operate8 .other .b src subtract s

/-- SUBD, R232: "D=D-s". -/
def execSubd (src : Src16) (s : State) : Result State :=
  operate16 .other .d src subtractWord s

/-- TST, R233: "s": N and Z, V cleared; nothing is written. -/
def execTst (m : Mem) (s : State) : Result State :=
  (source8 .other (.mem m) s).andThen fun (v, t) => .next (t.setNZ0 v)

/-- TSTA, R234: "a": N and Z, V cleared. -/
def execTsta (s : State) : Result State :=
  .next (s.setNZ0 (s.get8 .a))

/-- TSTB, R234: "a": N and Z, V cleared. -/
def execTstb (s : State) : Result State :=
  .next (s.setNZ0 (s.get8 .b))

end Sys2Proof.Machine
end

