-- ==== Sys2Proof/Machine/Branch.lean ====
section
/-! DEFINITION. The meanings of branches, jumps, calls and returns (spec/44_branch_jump.md). `s` is the state with PC
past the instruction (R25). -/

namespace Sys2Proof.Machine

/-- BCC, R341: "If C=0". -/
def execBcc (off : Byte) (s : State) : Result State :=
  branchIf .cc (sext8 off) s

/-- BCS, R342: "If C=1". -/
def execBcs (off : Byte) (s : State) : Result State :=
  branchIf .cs (sext8 off) s

/-- BEQ, R343: "If Z=1". -/
def execBeq (off : Byte) (s : State) : Result State :=
  branchIf .eq (sext8 off) s

/-- BGE, R344: "If NxV=0". -/
def execBge (off : Byte) (s : State) : Result State :=
  branchIf .ge (sext8 off) s

/-- BGT, R345: "If Zv{NxV}=0". -/
def execBgt (off : Byte) (s : State) : Result State :=
  branchIf .gt (sext8 off) s

/-- BHI, R346: "If CvZ=0". -/
def execBhi (off : Byte) (s : State) : Result State :=
  branchIf .hi (sext8 off) s

/-- BHS, R347: "If C=0". The same instruction as BCC (R120). -/
def execBhs (off : Byte) (s : State) : Result State :=
  branchIf .cc (sext8 off) s

/-- BLE, R348: "If Zv{NxV}=1". -/
def execBle (off : Byte) (s : State) : Result State :=
  branchIf .le (sext8 off) s

/-- BLO, R349: "If C=1". The same instruction as BCS (R120). -/
def execBlo (off : Byte) (s : State) : Result State :=
  branchIf .cs (sext8 off) s

/-- BLS, R350: "If CvZ=1". -/
def execBls (off : Byte) (s : State) : Result State :=
  branchIf .ls (sext8 off) s

/-- BLT, R351: "If NxV=1". -/
def execBlt (off : Byte) (s : State) : Result State :=
  branchIf .lt (sext8 off) s

/-- BMI, R352: "If N=1". -/
def execBmi (off : Byte) (s : State) : Result State :=
  branchIf .mi (sext8 off) s

/-- BNE, R353: "If Z=0". -/
def execBne (off : Byte) (s : State) : Result State :=
  branchIf .ne (sext8 off) s

/-- BPL, R354: "If N=0". -/
def execBpl (off : Byte) (s : State) : Result State :=
  branchIf .pl (sext8 off) s

/-- BRA, R355: "PC=m". -/
def execBra (off : Byte) (s : State) : Result State :=
  .next (branchTo (sext8 off) s)

/-- BRN, R356: "NOP"; the offset is ignored. -/
def execBrn (_off : Byte) (s : State) : Result State :=
  .next s

/-- BSR, R357: "-[S]=PC,BRA". -/
def execBsr (off : Byte) (s : State) : Result State :=
  branchSubroutine (sext8 off) s

/-- BVC, R358: "If V=0". -/
def execBvc (off : Byte) (s : State) : Result State :=
  branchIf .vc (sext8 off) s

/-- BVS, R359: "If V=1". -/
def execBvs (off : Byte) (s : State) : Result State :=
  branchIf .vs (sext8 off) s

/-- JMP, R360: "PC=EAs". -/
def execJmp (m : Mem) (s : State) : Result State :=
  (effectiveAddress m s).andThen fun (ea, t) => .next { t with pc := ea }

/-- JSR, R361: "-[S]=PC,JMP"; the address is computed before the push (R162). -/
def execJsr (m : Mem) (s : State) : Result State :=
  (effectiveAddress m s).andThen fun (ea, t) =>
    (push16 .s t.pc t).andThen fun t2 => .next { t2 with pc := ea }

/-- LBRN, R363: never taken; the offset is ignored. -/
def execLbrn (_off : Word) (s : State) : Result State :=
  .next s

/-- LBHI, R364: "If cc LBRA", If CvZ=0. -/
def execLbhi (off : Word) (s : State) : Result State :=
  branchIf .hi off s

/-- LBLS, R365: "If cc LBRA", If CvZ=1. -/
def execLbls (off : Word) (s : State) : Result State :=
  branchIf .ls off s

/-- LBCC, R366: "If cc LBRA", If C=0. -/
def execLbcc (off : Word) (s : State) : Result State :=
  branchIf .cc off s

/-- LBHS, R366: "If cc LBRA", If C=0. The same instruction as LBCC (R120). -/
def execLbhs (off : Word) (s : State) : Result State :=
  branchIf .cc off s

/-- LBCS, R367: "If cc LBRA", If C=1. -/
def execLbcs (off : Word) (s : State) : Result State :=
  branchIf .cs off s

/-- LBLO, R367: "If cc LBRA", If C=1. The same instruction as LBCS (R120). -/
def execLblo (off : Word) (s : State) : Result State :=
  branchIf .cs off s

/-- LBNE, R368: "If cc LBRA", If Z=0. -/
def execLbne (off : Word) (s : State) : Result State :=
  branchIf .ne off s

/-- LBEQ, R369: "If cc LBRA", If Z=1. -/
def execLbeq (off : Word) (s : State) : Result State :=
  branchIf .eq off s

/-- LBVC, R370: "If cc LBRA", If V=0. -/
def execLbvc (off : Word) (s : State) : Result State :=
  branchIf .vc off s

/-- LBVS, R371: "If cc LBRA", If V=1. -/
def execLbvs (off : Word) (s : State) : Result State :=
  branchIf .vs off s

/-- LBPL, R372: "If cc LBRA", If N=0. -/
def execLbpl (off : Word) (s : State) : Result State :=
  branchIf .pl off s

/-- LBMI, R373: "If cc LBRA", If N=1. -/
def execLbmi (off : Word) (s : State) : Result State :=
  branchIf .mi off s

/-- LBGE, R374: "If cc LBRA", If NxV=0. -/
def execLbge (off : Word) (s : State) : Result State :=
  branchIf .ge off s

/-- LBLT, R375: "If cc LBRA", If NxV=1. -/
def execLblt (off : Word) (s : State) : Result State :=
  branchIf .lt off s

/-- LBGT, R376: "If cc LBRA", If Zv{NxV}=0. -/
def execLbgt (off : Word) (s : State) : Result State :=
  branchIf .gt off s

/-- LBLE, R377: "If cc LBRA", If Zv{NxV}=1. -/
def execLble (off : Word) (s : State) : Result State :=
  branchIf .le off s

/-- LBRA, R378: "PC=nn". -/
def execLbra (off : Word) (s : State) : Result State :=
  .next (branchTo off s)

/-- LBSR, R379: "-[S]=PC,LBRA". -/
def execLbsr (off : Word) (s : State) : Result State :=
  branchSubroutine off s

/-- NOP, R380: PC has advanced, nothing else. -/
def execNop (s : State) : Result State :=
  .next s

/-- RTS, R381: "PC=[S]+". -/
def execRts (s : State) : Result State :=
  (pull16 .s s).andThen fun (v, t) => .next { t with pc := v }

end Sys2Proof.Machine
end

