-- ==== Sys2Proof/Machine/LoadStore.lean ====
section
/-! DEFINITION. The meanings of loads, stores, effective-address loads, transfers, push and pull (spec/43_load_store_stack.md). `s` is the state with PC
past the instruction (R25). -/

namespace Sys2Proof.Machine

/-- LDA, R300: "a=s". -/
def execLda (src : Src8) (s : State) : Result State :=
  operate8 .plain .a src loadByte s

/-- LDB, R300: "a=s". -/
def execLdb (src : Src8) (s : State) : Result State :=
  operate8 .plain .b src loadByte s

/-- LDD, R301: "D=s". -/
def execLdd (src : Src16) (s : State) : Result State :=
  operate16 .plain .d src loadWord s

/-- LDS, R302: "S=s"; NMI is armed (R404). -/
def execLds (src : Src16) (s : State) : Result State :=
  (operate16 .plain .s src loadWord s).andThen fun t => .next (t.armNmi (·.lds))

/-- LDU, R303: "U=s". -/
def execLdu (src : Src16) (s : State) : Result State :=
  operate16 .plain .u src loadWord s

/-- LDX, R304: "X=s". -/
def execLdx (src : Src16) (s : State) : Result State :=
  operate16 .plain .x src loadWord s

/-- LDY, R304: "Y=s". -/
def execLdy (src : Src16) (s : State) : Result State :=
  operate16 .plain .y src loadWord s

/-- LEAX, R305: "p=EAs", p = X; Z written. -/
def execLeax (p : Indexed) (s : State) : Result State :=
  loadAddressZ .x p s

/-- LEAY, R305: "p=EAs", p = Y; Z written. -/
def execLeay (p : Indexed) (s : State) : Result State :=
  loadAddressZ .y p s

/-- LEAS, R305: "p=EAs", p = S; no flag; NMI is armed (R404). -/
def execLeas (p : Indexed) (s : State) : Result State :=
  (loadAddress .s p s).andThen fun t => .next (t.armNmi (·.leas))

/-- LEAU, R305: "p=EAs", p = U; no flag. -/
def execLeau (p : Indexed) (s : State) : Result State :=
  loadAddress .u p s

/-- STA, R306: "d=a". -/
def execSta (m : Mem) (s : State) : Result State :=
  store8 .a m s

/-- STB, R306: "d=a". -/
def execStb (m : Mem) (s : State) : Result State :=
  store8 .b m s

/-- STD, R307: memory receives D (C4). -/
def execStd (m : Mem) (s : State) : Result State :=
  store16 .d m s

/-- STS, R308: memory receives S (C4). -/
def execSts (m : Mem) (s : State) : Result State :=
  store16 .s m s

/-- STU, R309: memory receives U (C4). -/
def execStu (m : Mem) (s : State) : Result State :=
  store16 .u m s

/-- STX, R310: memory receives X (C4). -/
def execStx (m : Mem) (s : State) : Result State :=
  store16 .x m s

/-- STY, R310: memory receives Y (C4). -/
def execSty (m : Mem) (s : State) : Result State :=
  store16 .y m s

/-- TFR, R311: "r2=r1"; from 8 to 16 bits the value is free (D9, log 12); from 16 to 8 bits refused (D9, log 13). -/
def execTfr (r1 r2 : AnyReg) (s : State) : Result State :=
  match r1, r2 with
  | .wide w1, .wide w2 => .next (arms w2 (s.set16 w2 (s.get16 w1)))
  | .byte c1, .byte c2 => .next (s.set8 c2 (s.get8 c1))
  | .byte c1, .wide w2 =>
    let v := Config.openTransfer r1 r2 s.draws (s.get8 c1)
    .next (arms w2 ({ s with draws := s.draws + 1 }.set16 w2 v))
  | .wide _, .byte _ => .refused .tfrSize
where
  /-- A destination S arms NMI (R38, R404). -/
  arms (r : Reg16) (t : State) : State := if r = .s then t.armNmi (·.tfr) else t

/-- EXG, R312: "r1<->r2"; unequal sizes refused (D9, log 13). -/
def execExg (r1 r2 : AnyReg) (s : State) : Result State :=
  match r1, r2 with
  | .wide w1, .wide w2 =>
    let t := (s.set16 w1 (s.get16 w2)).set16 w2 (s.get16 w1)
    .next (if w1 = .s ∨ w2 = .s then t.armNmi (·.exg) else t)
  | .byte c1, .byte c2 => .next ((s.set8 c1 (s.get8 c2)).set8 c2 (s.get8 c1))
  | .wide _, .byte _ => .refused .exgSize
  | .byte _, .wide _ => .refused .exgSize

/-- PSHS, R314: "-[S]={r,...}". -/
def execPshs (mask : Byte) (s : State) : Result State :=
  pushRegs .s mask s

/-- PSHU, R315: "-[U]={r,...}". -/
def execPshu (mask : Byte) (s : State) : Result State :=
  pushRegs .u mask s

/-- PULS, R316: "{r,...}=[S]+". -/
def execPuls (mask : Byte) (s : State) : Result State :=
  pullRegs .s mask s

/-- PULU, R317: "{r,...}=[U]+"; pulling S arms NMI. -/
def execPulu (mask : Byte) (s : State) : Result State :=
  (pullRegs .u mask s).andThen fun t =>
    .next (if mask.getLsbD StackItem.other.bit then t.armNmi (·.pulu) else t)

end Sys2Proof.Machine
end

