-- ==== Sys2Proof/Machine/Logic.lean ====
section
/-! DEFINITION. The meanings of the logical, shift, rotate and CC instructions (spec/42_logic_shift.md). `s` is the state with PC
past the instruction (R25). -/

namespace Sys2Proof.Machine

/-- ANDA, R260: "a=a&s". -/
def execAnda (src : Src8) (s : State) : Result State :=
  operate8 .other .a src andByte s

/-- ANDB, R260: "a=a&s". -/
def execAndb (src : Src8) (s : State) : Result State :=
  operate8 .other .b src andByte s

/-- ANDCC, R261: "CC=CC&s", every bit (C3). -/
def execAndcc (n : Byte) (s : State) : Result State :=
  .next (s.set8 .cc (s.cc &&& n))

/-- ASL, R262: memory operand. -/
def execAsl (m : Mem) (s : State) : Result State :=
  modifyMem m shiftLeft s

/-- ASLA, R263: accumulator. -/
def execAsla (s : State) : Result State :=
  modifyReg .a shiftLeft s

/-- ASLB, R263: accumulator. -/
def execAslb (s : State) : Result State :=
  modifyReg .b shiftLeft s

/-- ASR, R264: memory operand. -/
def execAsr (m : Mem) (s : State) : Result State :=
  modifyMem m shiftRightArith s

/-- ASRA, R265: accumulator. -/
def execAsra (s : State) : Result State :=
  modifyReg .a shiftRightArith s

/-- ASRB, R265: accumulator. -/
def execAsrb (s : State) : Result State :=
  modifyReg .b shiftRightArith s

/-- BITA, R266: "a&s", the accumulator unchanged. -/
def execBita (src : Src8) (s : State) : Result State :=
  compare8 .a src andByte s

/-- BITB, R266: "a&s", the accumulator unchanged. -/
def execBitb (src : Src8) (s : State) : Result State :=
  compare8 .b src andByte s

/-- COM, R267: memory operand. -/
def execCom (m : Mem) (s : State) : Result State :=
  modifyMem m complement s

/-- COMA, R268: accumulator. -/
def execComa (s : State) : Result State :=
  modifyReg .a complement s

/-- COMB, R268: accumulator. -/
def execComb (s : State) : Result State :=
  modifyReg .b complement s

/-- EORA, R269: "a=axs". -/
def execEora (src : Src8) (s : State) : Result State :=
  operate8 .other .a src xorByte s

/-- EORB, R269: "a=axs". -/
def execEorb (src : Src8) (s : State) : Result State :=
  operate8 .other .b src xorByte s

/-- LSL, R270: memory operand. The same instruction as ASL (R120). -/
def execLsl (m : Mem) (s : State) : Result State :=
  modifyMem m shiftLeft s

/-- LSLA, R271: accumulator. The same instruction as ASLA (R120). -/
def execLsla (s : State) : Result State :=
  modifyReg .a shiftLeft s

/-- LSLB, R271: accumulator. The same instruction as ASLB (R120). -/
def execLslb (s : State) : Result State :=
  modifyReg .b shiftLeft s

/-- LSR, R272: memory operand. -/
def execLsr (m : Mem) (s : State) : Result State :=
  modifyMem m shiftRight s

/-- LSRA, R273: accumulator. -/
def execLsra (s : State) : Result State :=
  modifyReg .a shiftRight s

/-- LSRB, R273: accumulator. -/
def execLsrb (s : State) : Result State :=
  modifyReg .b shiftRight s

/-- ORA, R274: "a=avs". -/
def execOra (src : Src8) (s : State) : Result State :=
  operate8 .other .a src orByte s

/-- ORB, R274: "a=avs". -/
def execOrb (src : Src8) (s : State) : Result State :=
  operate8 .other .b src orByte s

/-- ORCC, R275: "CC=CCvn", every bit. -/
def execOrcc (n : Byte) (s : State) : Result State :=
  .next (s.set8 .cc (s.cc ||| n))

/-- ROL, R276: memory operand. -/
def execRol (m : Mem) (s : State) : Result State :=
  modifyMem m rotateLeft s

/-- ROLA, R277: accumulator. -/
def execRola (s : State) : Result State :=
  modifyReg .a rotateLeft s

/-- ROLB, R277: accumulator. -/
def execRolb (s : State) : Result State :=
  modifyReg .b rotateLeft s

/-- ROR, R278: memory operand. -/
def execRor (m : Mem) (s : State) : Result State :=
  modifyMem m rotateRight s

/-- RORA, R279: accumulator. -/
def execRora (s : State) : Result State :=
  modifyReg .a rotateRight s

/-- RORB, R279: accumulator. -/
def execRorb (s : State) : Result State :=
  modifyReg .b rotateRight s

end Sys2Proof.Machine
end

