-- ==== Sys2Proof/Machine/System.lean ====
section
/-! DEFINITION. The meanings of software interrupts, return from interrupt, the wait instructions (spec/45_system.md). `s` is the state with PC
past the instruction (R25). -/

namespace Sys2Proof.Machine

/-- SWI, R390: "-[S]={regs}": the entire frame, E, F, I set, PC from FFFAH. -/
def execSwi (s : State) : Result State :=
  takeInterrupt .swi s

/-- SWI2, R391: the entire frame, E set, F and I unchanged, PC from FFF4H. -/
def execSwi2 (s : State) : Result State :=
  takeInterrupt .swi2 s

/-- SWI3, R392: the entire frame, E set, F and I unchanged, PC from FFF2H. -/
def execSwi3 (s : State) : Result State :=
  takeInterrupt .swi3 s

/-- RTI, R393: "{regs}=[S]+". -/
def execRti (s : State) : Result State :=
  returnFromInterrupt s

/-- CWAI, R394: "CC=CC&n,E=1,": AND, set E, stack the entire frame, wait. -/
def execCwai (n : Byte) (s : State) : Result State :=
  (pushRegs .s 0xFF ((s.set8 .cc (s.cc &&& n)).setFlag .e true)).andThen fun t =>
    .next { t with runState := .cwaiWait }

/-- SYNC, R395: "Sync. to interrupt": wait; nothing else changes. -/
def execSync (s : State) : Result State :=
  .next { s with runState := .syncWait }

end Sys2Proof.Machine
end

