-- ==== Sys2Proof/Machine/Dispatch.lean ====
section
/-! DEFINITION. The meaning of each instruction, one arm per constructor. -/

namespace Sys2Proof.Machine

def exec (i : Instr) (s : State) : Host.Outcome State Fault Refusal :=
  match i with
  | .abx => Sys2Proof.Machine.execAbx s
  | .adca src => Sys2Proof.Machine.execAdca src s
  | .adcb src => Sys2Proof.Machine.execAdcb src s
  | .adda src => Sys2Proof.Machine.execAdda src s
  | .addb src => Sys2Proof.Machine.execAddb src s
  | .addd src => Sys2Proof.Machine.execAddd src s
  | .clr m => Sys2Proof.Machine.execClr m s
  | .clra => Sys2Proof.Machine.execClra s
  | .clrb => Sys2Proof.Machine.execClrb s
  | .cmpa src => Sys2Proof.Machine.execCmpa src s
  | .cmpb src => Sys2Proof.Machine.execCmpb src s
  | .cmpd src => Sys2Proof.Machine.execCmpd src s
  | .cmps src => Sys2Proof.Machine.execCmps src s
  | .cmpu src => Sys2Proof.Machine.execCmpu src s
  | .cmpx src => Sys2Proof.Machine.execCmpx src s
  | .cmpy src => Sys2Proof.Machine.execCmpy src s
  | .daa => Sys2Proof.Machine.execDaa s
  | .dec m => Sys2Proof.Machine.execDec m s
  | .deca => Sys2Proof.Machine.execDeca s
  | .decb => Sys2Proof.Machine.execDecb s
  | .inc m => Sys2Proof.Machine.execInc m s
  | .inca => Sys2Proof.Machine.execInca s
  | .incb => Sys2Proof.Machine.execIncb s
  | .mul => Sys2Proof.Machine.execMul s
  | .neg m => Sys2Proof.Machine.execNeg m s
  | .nega => Sys2Proof.Machine.execNega s
  | .negb => Sys2Proof.Machine.execNegb s
  | .sbca src => Sys2Proof.Machine.execSbca src s
  | .sbcb src => Sys2Proof.Machine.execSbcb src s
  | .sex => Sys2Proof.Machine.execSex s
  | .suba src => Sys2Proof.Machine.execSuba src s
  | .subb src => Sys2Proof.Machine.execSubb src s
  | .subd src => Sys2Proof.Machine.execSubd src s
  | .tst m => Sys2Proof.Machine.execTst m s
  | .tsta => Sys2Proof.Machine.execTsta s
  | .tstb => Sys2Proof.Machine.execTstb s
  | .anda src => Sys2Proof.Machine.execAnda src s
  | .andb src => Sys2Proof.Machine.execAndb src s
  | .andcc n => Sys2Proof.Machine.execAndcc n s
  | .asl m => Sys2Proof.Machine.execAsl m s
  | .asla => Sys2Proof.Machine.execAsla s
  | .aslb => Sys2Proof.Machine.execAslb s
  | .asr m => Sys2Proof.Machine.execAsr m s
  | .asra => Sys2Proof.Machine.execAsra s
  | .asrb => Sys2Proof.Machine.execAsrb s
  | .bita src => Sys2Proof.Machine.execBita src s
  | .bitb src => Sys2Proof.Machine.execBitb src s
  | .com m => Sys2Proof.Machine.execCom m s
  | .coma => Sys2Proof.Machine.execComa s
  | .comb => Sys2Proof.Machine.execComb s
  | .eora src => Sys2Proof.Machine.execEora src s
  | .eorb src => Sys2Proof.Machine.execEorb src s
  | .lsl m => Sys2Proof.Machine.execLsl m s
  | .lsla => Sys2Proof.Machine.execLsla s
  | .lslb => Sys2Proof.Machine.execLslb s
  | .lsr m => Sys2Proof.Machine.execLsr m s
  | .lsra => Sys2Proof.Machine.execLsra s
  | .lsrb => Sys2Proof.Machine.execLsrb s
  | .ora src => Sys2Proof.Machine.execOra src s
  | .orb src => Sys2Proof.Machine.execOrb src s
  | .orcc n => Sys2Proof.Machine.execOrcc n s
  | .rol m => Sys2Proof.Machine.execRol m s
  | .rola => Sys2Proof.Machine.execRola s
  | .rolb => Sys2Proof.Machine.execRolb s
  | .ror m => Sys2Proof.Machine.execRor m s
  | .rora => Sys2Proof.Machine.execRora s
  | .rorb => Sys2Proof.Machine.execRorb s
  | .lda src => Sys2Proof.Machine.execLda src s
  | .ldb src => Sys2Proof.Machine.execLdb src s
  | .ldd src => Sys2Proof.Machine.execLdd src s
  | .lds src => Sys2Proof.Machine.execLds src s
  | .ldu src => Sys2Proof.Machine.execLdu src s
  | .ldx src => Sys2Proof.Machine.execLdx src s
  | .ldy src => Sys2Proof.Machine.execLdy src s
  | .leax p => Sys2Proof.Machine.execLeax p s
  | .leay p => Sys2Proof.Machine.execLeay p s
  | .leas p => Sys2Proof.Machine.execLeas p s
  | .leau p => Sys2Proof.Machine.execLeau p s
  | .sta m => Sys2Proof.Machine.execSta m s
  | .stb m => Sys2Proof.Machine.execStb m s
  | .std m => Sys2Proof.Machine.execStd m s
  | .sts m => Sys2Proof.Machine.execSts m s
  | .stu m => Sys2Proof.Machine.execStu m s
  | .stx m => Sys2Proof.Machine.execStx m s
  | .sty m => Sys2Proof.Machine.execSty m s
  | .tfr r1 r2 => Sys2Proof.Machine.execTfr r1 r2 s
  | .exg r1 r2 => Sys2Proof.Machine.execExg r1 r2 s
  | .pshs mask => Sys2Proof.Machine.execPshs mask s
  | .pshu mask => Sys2Proof.Machine.execPshu mask s
  | .puls mask => Sys2Proof.Machine.execPuls mask s
  | .pulu mask => Sys2Proof.Machine.execPulu mask s
  | .bcc off => Sys2Proof.Machine.execBcc off s
  | .bcs off => Sys2Proof.Machine.execBcs off s
  | .beq off => Sys2Proof.Machine.execBeq off s
  | .bge off => Sys2Proof.Machine.execBge off s
  | .bgt off => Sys2Proof.Machine.execBgt off s
  | .bhi off => Sys2Proof.Machine.execBhi off s
  | .bhs off => Sys2Proof.Machine.execBhs off s
  | .ble off => Sys2Proof.Machine.execBle off s
  | .blo off => Sys2Proof.Machine.execBlo off s
  | .bls off => Sys2Proof.Machine.execBls off s
  | .blt off => Sys2Proof.Machine.execBlt off s
  | .bmi off => Sys2Proof.Machine.execBmi off s
  | .bne off => Sys2Proof.Machine.execBne off s
  | .bpl off => Sys2Proof.Machine.execBpl off s
  | .bra off => Sys2Proof.Machine.execBra off s
  | .brn off => Sys2Proof.Machine.execBrn off s
  | .bsr off => Sys2Proof.Machine.execBsr off s
  | .bvc off => Sys2Proof.Machine.execBvc off s
  | .bvs off => Sys2Proof.Machine.execBvs off s
  | .jmp m => Sys2Proof.Machine.execJmp m s
  | .jsr m => Sys2Proof.Machine.execJsr m s
  | .lbrn off => Sys2Proof.Machine.execLbrn off s
  | .lbhi off => Sys2Proof.Machine.execLbhi off s
  | .lbls off => Sys2Proof.Machine.execLbls off s
  | .lbcc off => Sys2Proof.Machine.execLbcc off s
  | .lbhs off => Sys2Proof.Machine.execLbhs off s
  | .lbcs off => Sys2Proof.Machine.execLbcs off s
  | .lblo off => Sys2Proof.Machine.execLblo off s
  | .lbne off => Sys2Proof.Machine.execLbne off s
  | .lbeq off => Sys2Proof.Machine.execLbeq off s
  | .lbvc off => Sys2Proof.Machine.execLbvc off s
  | .lbvs off => Sys2Proof.Machine.execLbvs off s
  | .lbpl off => Sys2Proof.Machine.execLbpl off s
  | .lbmi off => Sys2Proof.Machine.execLbmi off s
  | .lbge off => Sys2Proof.Machine.execLbge off s
  | .lblt off => Sys2Proof.Machine.execLblt off s
  | .lbgt off => Sys2Proof.Machine.execLbgt off s
  | .lble off => Sys2Proof.Machine.execLble off s
  | .lbra off => Sys2Proof.Machine.execLbra off s
  | .lbsr off => Sys2Proof.Machine.execLbsr off s
  | .nop => Sys2Proof.Machine.execNop s
  | .rts => Sys2Proof.Machine.execRts s
  | .swi => Sys2Proof.Machine.execSwi s
  | .swi2 => Sys2Proof.Machine.execSwi2 s
  | .swi3 => Sys2Proof.Machine.execSwi3 s
  | .rti => Sys2Proof.Machine.execRti s
  | .cwai n => Sys2Proof.Machine.execCwai n s
  | .sync => Sys2Proof.Machine.execSync s

end Sys2Proof.Machine
end

