-- ==== Sys2Proof/Decode.lean ====
section
/-! DEFINITION. The decoder, total on any bytes, and after it the encoder (spec/30_encoding.md,
spec/40_addressing_modes.md R145 to R165, spec/43_load_store_stack.md R313). -/

namespace Sys2Proof

/-- What reading an instruction from a list of bytes comes to. -/
inductive Decoded (α : Type) where
  /-- An instruction (or an operand), with the bytes after it. -/
  | ok (i : α) (rest : List Byte)
  /-- The bytes end before the instruction does. -/
  | short
  /-- No row of the opcode map (R114), a repeated prefix included (R115). -/
  | undefinedOpcode
  /-- A postbyte that selects no indexed form (R161). -/
  | undefinedPostbyte
  /-- A TFR or EXG postbyte with an undefined register code (R313). -/
  | undefinedRegisterCode
deriving DecidableEq, Repr

/-- Go on with the bytes that are left, or keep the reason there is nothing to go on with. -/
def Decoded.andThen {α β : Type} (d : Decoded α) (f : α → List Byte → Decoded β) : Decoded β :=
  match d with
  | .ok i rest => f i rest
  | .short => .short
  | .undefinedOpcode => .undefinedOpcode
  | .undefinedPostbyte => .undefinedPostbyte
  | .undefinedRegisterCode => .undefinedRegisterCode

/-- One operand byte (R99, R101, R104). -/
def decodeByte (bs : List Byte) : Decoded Byte :=
  match bs with
  | b :: rest => .ok b rest
  | [] => .short

/-- Two operand bytes, the high byte first (R100, R102, R105, R121). -/
def decodeWord (bs : List Byte) : Decoded Word :=
  match bs with
  | hi :: lo :: rest => .ok (be16 hi lo) rest
  | [_] => .short
  | [] => .short

/-- The field RR of an indexed postbyte (R146). -/
def decodeIndexReg (rr : BitVec 2) : IndexReg :=
  match rr.toNat with
  | 0 => .x
  | 1 => .y
  | 2 => .u
  | _ => .s

/-- The operand of a postbyte whose bit 7 is 1: register `r`, indirection bit `ind`, form MMMM
(R145, R161, R165). `pb` is the whole postbyte: extended indirect is 9FH only (R159). -/
def decodeForm (pb : Byte) (r : IndexReg) (ind : Bool) (bs : List Byte) : Decoded Indexed :=
  match (pb.extractLsb' 0 4).toNat with
  | 0 => if ind then .undefinedPostbyte else .ok (.form r .postInc1 false) bs
  | 1 => .ok (.form r .postInc2 ind) bs
  | 2 => if ind then .undefinedPostbyte else .ok (.form r .preDec1 false) bs
  | 3 => .ok (.form r .preDec2 ind) bs
  | 4 => .ok (.form r .zero ind) bs
  | 5 => .ok (.form r .accB ind) bs
  | 6 => .ok (.form r .accA ind) bs
  | 8 => (decodeByte bs).andThen fun n rest => .ok (.form r (.off8 n) ind) rest
  | 9 => (decodeWord bs).andThen fun nn rest => .ok (.form r (.off16 nn) ind) rest
  | 11 => .ok (.form r .accD ind) bs
  | 12 => (decodeByte bs).andThen fun n rest => .ok (.pcr8 n ind) rest
  | 13 => (decodeWord bs).andThen fun nn rest => .ok (.pcr16 nn ind) rest
  | 15 =>
    if pb = 0x9F#8 then (decodeWord bs).andThen fun nn rest => .ok (.extInd nn) rest
    else .undefinedPostbyte
  | _ => .undefinedPostbyte

/-- An indexed operand from its postbyte on (R103, R145). -/
def decodeIndexed (bs : List Byte) : Decoded Indexed :=
  match bs with
  | [] => .short
  | pb :: rest =>
    let r := decodeIndexReg (pb.extractLsb' 5 2)
    if pb.getLsbD 7 then decodeForm pb r (pb.getLsbD 4) rest
    else .ok (.off5 r (pb.extractLsb' 0 5)) rest

/-- A register code of a TFR or EXG postbyte (R313). -/
def decodeRegCode (code : BitVec 4) : Option AnyReg :=
  match code.toNat with
  | 0 => some (.wide .d)
  | 1 => some (.wide .x)
  | 2 => some (.wide .y)
  | 3 => some (.wide .u)
  | 4 => some (.wide .s)
  | 5 => some (.wide .pc)
  | 8 => some (.byte .a)
  | 9 => some (.byte .b)
  | 10 => some (.byte .cc)
  | 11 => some (.byte .dp)
  | _ => none

/-- The two registers of a TFR or EXG postbyte: high nibble first (R106). -/
def decodeRegPair (bs : List Byte) : Decoded (AnyReg × AnyReg) :=
  match bs with
  | [] => .short
  | pb :: rest =>
    match decodeRegCode (pb.extractLsb' 4 4), decodeRegCode (pb.extractLsb' 0 4) with
    | some r1, some r2 => .ok (r1, r2) rest
    | some _, none => .undefinedRegisterCode
    | none, _ => .undefinedRegisterCode

/-- The format of an opcode (R98 to R107, R110), with the instruction its operand makes. -/
inductive Format where
  | inherent (i : Instr)
  | immediate8 (k : Byte → Instr)
  | immediate16 (k : Word → Instr)
  | direct (k : Mem → Instr)
  | extended (k : Mem → Instr)
  | indexed (k : Indexed → Instr)
  | relative8 (k : Byte → Instr)
  | relative16 (k : Word → Instr)
  | registerPostbyte (k : AnyReg → AnyReg → Instr)
  | stackPostbyte (k : Byte → Instr)

/-- Read the operand bytes a format asks for (R110). -/
def Format.operands : Format → List Byte → Decoded Instr
  | .inherent i, bs => .ok i bs
  | .immediate8 k, bs => (decodeByte bs).andThen fun n rest => .ok (k n) rest
  | .immediate16 k, bs => (decodeWord bs).andThen fun nn rest => .ok (k nn) rest
  | .direct k, bs => (decodeByte bs).andThen fun n rest => .ok (k (.direct n)) rest
  | .extended k, bs => (decodeWord bs).andThen fun nn rest => .ok (k (.extended nn)) rest
  | .indexed k, bs => (decodeIndexed bs).andThen fun p rest => .ok (k p) rest
  | .relative8 k, bs => (decodeByte bs).andThen fun off rest => .ok (k off) rest
  | .relative16 k, bs => (decodeWord bs).andThen fun off rest => .ok (k off) rest
  | .registerPostbyte k, bs => (decodeRegPair bs).andThen fun p rest => .ok (k p.1 p.2) rest
  | .stackPostbyte k, bs => (decodeByte bs).andThen fun m rest => .ok (k m) rest

/-- Page 1: the opcode map with no prefix (R111). -/
def page1 (op : Byte) : Option Format :=
  match op.toNat with
  | 0x00 => some (.direct .neg)
  | 0x03 => some (.direct .com)
  | 0x04 => some (.direct .lsr)
  | 0x06 => some (.direct .ror)
  | 0x07 => some (.direct .asr)
  | 0x08 => some (.direct .asl)
  | 0x09 => some (.direct .rol)
  | 0x0A => some (.direct .dec)
  | 0x0C => some (.direct .inc)
  | 0x0D => some (.direct .tst)
  | 0x0E => some (.direct .jmp)
  | 0x0F => some (.direct .clr)
  | 0x12 => some (.inherent .nop)
  | 0x13 => some (.inherent .sync)
  | 0x16 => some (.relative16 .lbra)
  | 0x17 => some (.relative16 .lbsr)
  | 0x19 => some (.inherent .daa)
  | 0x1A => some (.immediate8 .orcc)
  | 0x1C => some (.immediate8 .andcc)
  | 0x1D => some (.inherent .sex)
  | 0x1E => some (.registerPostbyte .exg)
  | 0x1F => some (.registerPostbyte .tfr)
  | 0x20 => some (.relative8 .bra)
  | 0x21 => some (.relative8 .brn)
  | 0x22 => some (.relative8 .bhi)
  | 0x23 => some (.relative8 .bls)
  | 0x24 => some (.relative8 .bcc)
  | 0x25 => some (.relative8 .bcs)
  | 0x26 => some (.relative8 .bne)
  | 0x27 => some (.relative8 .beq)
  | 0x28 => some (.relative8 .bvc)
  | 0x29 => some (.relative8 .bvs)
  | 0x2A => some (.relative8 .bpl)
  | 0x2B => some (.relative8 .bmi)
  | 0x2C => some (.relative8 .bge)
  | 0x2D => some (.relative8 .blt)
  | 0x2E => some (.relative8 .bgt)
  | 0x2F => some (.relative8 .ble)
  | 0x30 => some (.indexed .leax)
  | 0x31 => some (.indexed .leay)
  | 0x32 => some (.indexed .leas)
  | 0x33 => some (.indexed .leau)
  | 0x34 => some (.stackPostbyte .pshs)
  | 0x35 => some (.stackPostbyte .puls)
  | 0x36 => some (.stackPostbyte .pshu)
  | 0x37 => some (.stackPostbyte .pulu)
  | 0x39 => some (.inherent .rts)
  | 0x3A => some (.inherent .abx)
  | 0x3B => some (.inherent .rti)
  | 0x3C => some (.immediate8 .cwai)
  | 0x3D => some (.inherent .mul)
  | 0x3F => some (.inherent .swi)
  | 0x40 => some (.inherent .nega)
  | 0x43 => some (.inherent .coma)
  | 0x44 => some (.inherent .lsra)
  | 0x46 => some (.inherent .rora)
  | 0x47 => some (.inherent .asra)
  | 0x48 => some (.inherent .asla)
  | 0x49 => some (.inherent .rola)
  | 0x4A => some (.inherent .deca)
  | 0x4C => some (.inherent .inca)
  | 0x4D => some (.inherent .tsta)
  | 0x4F => some (.inherent .clra)
  | 0x50 => some (.inherent .negb)
  | 0x53 => some (.inherent .comb)
  | 0x54 => some (.inherent .lsrb)
  | 0x56 => some (.inherent .rorb)
  | 0x57 => some (.inherent .asrb)
  | 0x58 => some (.inherent .aslb)
  | 0x59 => some (.inherent .rolb)
  | 0x5A => some (.inherent .decb)
  | 0x5C => some (.inherent .incb)
  | 0x5D => some (.inherent .tstb)
  | 0x5F => some (.inherent .clrb)
  | 0x60 => some (.indexed fun p => .neg (.indexed p))
  | 0x63 => some (.indexed fun p => .com (.indexed p))
  | 0x64 => some (.indexed fun p => .lsr (.indexed p))
  | 0x66 => some (.indexed fun p => .ror (.indexed p))
  | 0x67 => some (.indexed fun p => .asr (.indexed p))
  | 0x68 => some (.indexed fun p => .asl (.indexed p))
  | 0x69 => some (.indexed fun p => .rol (.indexed p))
  | 0x6A => some (.indexed fun p => .dec (.indexed p))
  | 0x6C => some (.indexed fun p => .inc (.indexed p))
  | 0x6D => some (.indexed fun p => .tst (.indexed p))
  | 0x6E => some (.indexed fun p => .jmp (.indexed p))
  | 0x6F => some (.indexed fun p => .clr (.indexed p))
  | 0x70 => some (.extended .neg)
  | 0x73 => some (.extended .com)
  | 0x74 => some (.extended .lsr)
  | 0x76 => some (.extended .ror)
  | 0x77 => some (.extended .asr)
  | 0x78 => some (.extended .asl)
  | 0x79 => some (.extended .rol)
  | 0x7A => some (.extended .dec)
  | 0x7C => some (.extended .inc)
  | 0x7D => some (.extended .tst)
  | 0x7E => some (.extended .jmp)
  | 0x7F => some (.extended .clr)
  | 0x80 => some (.immediate8 fun n => .suba (.imm n))
  | 0x81 => some (.immediate8 fun n => .cmpa (.imm n))
  | 0x82 => some (.immediate8 fun n => .sbca (.imm n))
  | 0x83 => some (.immediate16 fun nn => .subd (.imm nn))
  | 0x84 => some (.immediate8 fun n => .anda (.imm n))
  | 0x85 => some (.immediate8 fun n => .bita (.imm n))
  | 0x86 => some (.immediate8 fun n => .lda (.imm n))
  | 0x88 => some (.immediate8 fun n => .eora (.imm n))
  | 0x89 => some (.immediate8 fun n => .adca (.imm n))
  | 0x8A => some (.immediate8 fun n => .ora (.imm n))
  | 0x8B => some (.immediate8 fun n => .adda (.imm n))
  | 0x8C => some (.immediate16 fun nn => .cmpx (.imm nn))
  | 0x8D => some (.relative8 .bsr)
  | 0x8E => some (.immediate16 fun nn => .ldx (.imm nn))
  | 0x90 => some (.direct fun m => .suba (.mem m))
  | 0x91 => some (.direct fun m => .cmpa (.mem m))
  | 0x92 => some (.direct fun m => .sbca (.mem m))
  | 0x93 => some (.direct fun m => .subd (.mem m))
  | 0x94 => some (.direct fun m => .anda (.mem m))
  | 0x95 => some (.direct fun m => .bita (.mem m))
  | 0x96 => some (.direct fun m => .lda (.mem m))
  | 0x97 => some (.direct .sta)
  | 0x98 => some (.direct fun m => .eora (.mem m))
  | 0x99 => some (.direct fun m => .adca (.mem m))
  | 0x9A => some (.direct fun m => .ora (.mem m))
  | 0x9B => some (.direct fun m => .adda (.mem m))
  | 0x9C => some (.direct fun m => .cmpx (.mem m))
  | 0x9D => some (.direct .jsr)
  | 0x9E => some (.direct fun m => .ldx (.mem m))
  | 0x9F => some (.direct .stx)
  | 0xA0 => some (.indexed fun p => .suba (.mem (.indexed p)))
  | 0xA1 => some (.indexed fun p => .cmpa (.mem (.indexed p)))
  | 0xA2 => some (.indexed fun p => .sbca (.mem (.indexed p)))
  | 0xA3 => some (.indexed fun p => .subd (.mem (.indexed p)))
  | 0xA4 => some (.indexed fun p => .anda (.mem (.indexed p)))
  | 0xA5 => some (.indexed fun p => .bita (.mem (.indexed p)))
  | 0xA6 => some (.indexed fun p => .lda (.mem (.indexed p)))
  | 0xA7 => some (.indexed fun p => .sta (.indexed p))
  | 0xA8 => some (.indexed fun p => .eora (.mem (.indexed p)))
  | 0xA9 => some (.indexed fun p => .adca (.mem (.indexed p)))
  | 0xAA => some (.indexed fun p => .ora (.mem (.indexed p)))
  | 0xAB => some (.indexed fun p => .adda (.mem (.indexed p)))
  | 0xAC => some (.indexed fun p => .cmpx (.mem (.indexed p)))
  | 0xAD => some (.indexed fun p => .jsr (.indexed p))
  | 0xAE => some (.indexed fun p => .ldx (.mem (.indexed p)))
  | 0xAF => some (.indexed fun p => .stx (.indexed p))
  | 0xB0 => some (.extended fun m => .suba (.mem m))
  | 0xB1 => some (.extended fun m => .cmpa (.mem m))
  | 0xB2 => some (.extended fun m => .sbca (.mem m))
  | 0xB3 => some (.extended fun m => .subd (.mem m))
  | 0xB4 => some (.extended fun m => .anda (.mem m))
  | 0xB5 => some (.extended fun m => .bita (.mem m))
  | 0xB6 => some (.extended fun m => .lda (.mem m))
  | 0xB7 => some (.extended .sta)
  | 0xB8 => some (.extended fun m => .eora (.mem m))
  | 0xB9 => some (.extended fun m => .adca (.mem m))
  | 0xBA => some (.extended fun m => .ora (.mem m))
  | 0xBB => some (.extended fun m => .adda (.mem m))
  | 0xBC => some (.extended fun m => .cmpx (.mem m))
  | 0xBD => some (.extended .jsr)
  | 0xBE => some (.extended fun m => .ldx (.mem m))
  | 0xBF => some (.extended .stx)
  | 0xC0 => some (.immediate8 fun n => .subb (.imm n))
  | 0xC1 => some (.immediate8 fun n => .cmpb (.imm n))
  | 0xC2 => some (.immediate8 fun n => .sbcb (.imm n))
  | 0xC3 => some (.immediate16 fun nn => .addd (.imm nn))
  | 0xC4 => some (.immediate8 fun n => .andb (.imm n))
  | 0xC5 => some (.immediate8 fun n => .bitb (.imm n))
  | 0xC6 => some (.immediate8 fun n => .ldb (.imm n))
  | 0xC8 => some (.immediate8 fun n => .eorb (.imm n))
  | 0xC9 => some (.immediate8 fun n => .adcb (.imm n))
  | 0xCA => some (.immediate8 fun n => .orb (.imm n))
  | 0xCB => some (.immediate8 fun n => .addb (.imm n))
  | 0xCC => some (.immediate16 fun nn => .ldd (.imm nn))
  | 0xCE => some (.immediate16 fun nn => .ldu (.imm nn))
  | 0xD0 => some (.direct fun m => .subb (.mem m))
  | 0xD1 => some (.direct fun m => .cmpb (.mem m))
  | 0xD2 => some (.direct fun m => .sbcb (.mem m))
  | 0xD3 => some (.direct fun m => .addd (.mem m))
  | 0xD4 => some (.direct fun m => .andb (.mem m))
  | 0xD5 => some (.direct fun m => .bitb (.mem m))
  | 0xD6 => some (.direct fun m => .ldb (.mem m))
  | 0xD7 => some (.direct .stb)
  | 0xD8 => some (.direct fun m => .eorb (.mem m))
  | 0xD9 => some (.direct fun m => .adcb (.mem m))
  | 0xDA => some (.direct fun m => .orb (.mem m))
  | 0xDB => some (.direct fun m => .addb (.mem m))
  | 0xDC => some (.direct fun m => .ldd (.mem m))
  | 0xDD => some (.direct .std)
  | 0xDE => some (.direct fun m => .ldu (.mem m))
  | 0xDF => some (.direct .stu)
  | 0xE0 => some (.indexed fun p => .subb (.mem (.indexed p)))
  | 0xE1 => some (.indexed fun p => .cmpb (.mem (.indexed p)))
  | 0xE2 => some (.indexed fun p => .sbcb (.mem (.indexed p)))
  | 0xE3 => some (.indexed fun p => .addd (.mem (.indexed p)))
  | 0xE4 => some (.indexed fun p => .andb (.mem (.indexed p)))
  | 0xE5 => some (.indexed fun p => .bitb (.mem (.indexed p)))
  | 0xE6 => some (.indexed fun p => .ldb (.mem (.indexed p)))
  | 0xE7 => some (.indexed fun p => .stb (.indexed p))
  | 0xE8 => some (.indexed fun p => .eorb (.mem (.indexed p)))
  | 0xE9 => some (.indexed fun p => .adcb (.mem (.indexed p)))
  | 0xEA => some (.indexed fun p => .orb (.mem (.indexed p)))
  | 0xEB => some (.indexed fun p => .addb (.mem (.indexed p)))
  | 0xEC => some (.indexed fun p => .ldd (.mem (.indexed p)))
  | 0xED => some (.indexed fun p => .std (.indexed p))
  | 0xEE => some (.indexed fun p => .ldu (.mem (.indexed p)))
  | 0xEF => some (.indexed fun p => .stu (.indexed p))
  | 0xF0 => some (.extended fun m => .subb (.mem m))
  | 0xF1 => some (.extended fun m => .cmpb (.mem m))
  | 0xF2 => some (.extended fun m => .sbcb (.mem m))
  | 0xF3 => some (.extended fun m => .addd (.mem m))
  | 0xF4 => some (.extended fun m => .andb (.mem m))
  | 0xF5 => some (.extended fun m => .bitb (.mem m))
  | 0xF6 => some (.extended fun m => .ldb (.mem m))
  | 0xF7 => some (.extended .stb)
  | 0xF8 => some (.extended fun m => .eorb (.mem m))
  | 0xF9 => some (.extended fun m => .adcb (.mem m))
  | 0xFA => some (.extended fun m => .orb (.mem m))
  | 0xFB => some (.extended fun m => .addb (.mem m))
  | 0xFC => some (.extended fun m => .ldd (.mem m))
  | 0xFD => some (.extended .std)
  | 0xFE => some (.extended fun m => .ldu (.mem m))
  | 0xFF => some (.extended .stu)
  | _ => none

/-- Page 2: the second byte after the prefix 10H (R112). -/
def page2 (op : Byte) : Option Format :=
  match op.toNat with
  | 0x21 => some (.relative16 .lbrn)
  | 0x22 => some (.relative16 .lbhi)
  | 0x23 => some (.relative16 .lbls)
  | 0x24 => some (.relative16 .lbcc)
  | 0x25 => some (.relative16 .lbcs)
  | 0x26 => some (.relative16 .lbne)
  | 0x27 => some (.relative16 .lbeq)
  | 0x28 => some (.relative16 .lbvc)
  | 0x29 => some (.relative16 .lbvs)
  | 0x2A => some (.relative16 .lbpl)
  | 0x2B => some (.relative16 .lbmi)
  | 0x2C => some (.relative16 .lbge)
  | 0x2D => some (.relative16 .lblt)
  | 0x2E => some (.relative16 .lbgt)
  | 0x2F => some (.relative16 .lble)
  | 0x3F => some (.inherent .swi2)
  | 0x83 => some (.immediate16 fun nn => .cmpd (.imm nn))
  | 0x8C => some (.immediate16 fun nn => .cmpy (.imm nn))
  | 0x8E => some (.immediate16 fun nn => .ldy (.imm nn))
  | 0x93 => some (.direct fun m => .cmpd (.mem m))
  | 0x9C => some (.direct fun m => .cmpy (.mem m))
  | 0x9E => some (.direct fun m => .ldy (.mem m))
  | 0x9F => some (.direct .sty)
  | 0xA3 => some (.indexed fun p => .cmpd (.mem (.indexed p)))
  | 0xAC => some (.indexed fun p => .cmpy (.mem (.indexed p)))
  | 0xAE => some (.indexed fun p => .ldy (.mem (.indexed p)))
  | 0xAF => some (.indexed fun p => .sty (.indexed p))
  | 0xB3 => some (.extended fun m => .cmpd (.mem m))
  | 0xBC => some (.extended fun m => .cmpy (.mem m))
  | 0xBE => some (.extended fun m => .ldy (.mem m))
  | 0xBF => some (.extended .sty)
  | 0xCE => some (.immediate16 fun nn => .lds (.imm nn))
  | 0xDE => some (.direct fun m => .lds (.mem m))
  | 0xDF => some (.direct .sts)
  | 0xEE => some (.indexed fun p => .lds (.mem (.indexed p)))
  | 0xEF => some (.indexed fun p => .sts (.indexed p))
  | 0xFE => some (.extended fun m => .lds (.mem m))
  | 0xFF => some (.extended .sts)
  | _ => none

/-- Page 3: the second byte after the prefix 11H (R113). -/
def page3 (op : Byte) : Option Format :=
  match op.toNat with
  | 0x3F => some (.inherent .swi3)
  | 0x83 => some (.immediate16 fun nn => .cmpu (.imm nn))
  | 0x8C => some (.immediate16 fun nn => .cmps (.imm nn))
  | 0x93 => some (.direct fun m => .cmpu (.mem m))
  | 0x9C => some (.direct fun m => .cmps (.mem m))
  | 0xA3 => some (.indexed fun p => .cmpu (.mem (.indexed p)))
  | 0xAC => some (.indexed fun p => .cmps (.mem (.indexed p)))
  | 0xB3 => some (.extended fun m => .cmpu (.mem m))
  | 0xBC => some (.extended fun m => .cmps (.mem m))
  | _ => none

/-- An instruction after its prefix, if any: the opcode byte looked up on its page (R110, R114). -/
def decodePage (page : Byte → Option Format) (bs : List Byte) : Decoded Instr :=
  match bs with
  | [] => .short
  | op :: rest =>
    match page op with
    | some f => f.operands rest
    | none => .undefinedOpcode

/-- The decoder: the instruction at the head of a list of bytes (R90, R91, R110). -/
def decode (bs : List Byte) : Decoded Instr :=
  match bs with
  | [] => .short
  | b :: rest =>
    if b = 0x10#8 then decodePage page2 rest
    else if b = 0x11#8 then decodePage page3 rest
    else decodePage page1 (b :: rest)

/-- `n` bytes of a number, the least significant first. -/
def bytesLE : Nat → Nat → List Byte
  | 0, _ => []
  | n + 1, w => BitVec.ofNat 8 w :: bytesLE n (w / 256)

/-- Is this byte one of the two prefixes (R91)? -/
def isPrefix (b : Byte) : Bool := b = 0x10#8 || b = 0x11#8

/-- The bytes of an opcode-table word in memory order, filled up with zeros to the longest instruction
(R90). The table writes a prefixed row as ONE number with the prefix above the opcode ("10 21" is 1021H):
such a word is laid out from its top byte down, any other from bits 7..0 up (log 2). -/
def tableBytes (nbits w : Nat) : List Byte :=
  let le := bytesLE (nbits / 8) w
  let inOrder :=
    match le.reverse with
    | top :: more => if isPrefix top then top :: more else le
    | [] => le
  inOrder ++ List.replicate (5 - nbits / 8) 0#8

/-- What the decoder reads from a word of the opcode table. -/
def decodeTableWord (nbits w : Nat) : Option Instr :=
  match decode (tableBytes nbits w) with
  | .ok i _ => some i
  | .short => none
  | .undefinedOpcode => none
  | .undefinedPostbyte => none
  | .undefinedRegisterCode => none

/-! ## The encoder -/

/-- The field RR of a register (R146). -/
def IndexReg.code : IndexReg → BitVec 2
  | .x => 0#2
  | .y => 1#2
  | .u => 2#2
  | .s => 3#2

/-- The field MMMM of a form (R145). -/
def IndexForm.code : IndexForm → BitVec 4
  | .postInc1 => 0#4
  | .postInc2 => 1#4
  | .preDec1 => 2#4
  | .preDec2 => 3#4
  | .zero => 4#4
  | .accB => 5#4
  | .accA => 6#4
  | .off8 _ => 8#4
  | .off16 _ => 9#4
  | .accD => 11#4

/-- The offset bytes of a form (R145). -/
def IndexForm.offsetBytes : IndexForm → List Byte
  | .off8 n => [n]
  | .off16 nn => [hi8 nn, lo8 nn]
  | .postInc1 => []
  | .postInc2 => []
  | .preDec1 => []
  | .preDec2 => []
  | .zero => []
  | .accB => []
  | .accA => []
  | .accD => []

/-- A postbyte with bit 7 set: RR, the indirection bit, MMMM (R145). -/
def formPostbyte (rr : BitVec 2) (ind : Bool) (mmmm : BitVec 4) : Byte :=
  1#1 ++ rr ++ BitVec.ofBool ind ++ mmmm

/-- The postbyte and offset bytes of an indexed operand (R145). DESIGN CHOICE (log 35): a PC-relative form is written with
RR = 00, of the four values that R146 says select the same form. -/
def Indexed.bytes : Indexed → List Byte
  | .off5 r n => [(0#1 ++ r.code ++ n : BitVec 8)]
  | .form r f ind => formPostbyte r.code ind f.code :: f.offsetBytes
  | .pcr8 n ind => [formPostbyte 0#2 ind 12#4, n]
  | .pcr16 nn ind => [formPostbyte 0#2 ind 13#4, hi8 nn, lo8 nn]
  | .extInd nn => [0x9F#8, hi8 nn, lo8 nn]

/-- A memory operand with its three opcodes: direct, indexed, extended (R93, R94). -/
def Mem.encode (dir idx ext : Byte) : Mem → List Byte
  | .direct n => [dir, n]
  | .indexed p => idx :: p.bytes
  | .extended nn => [ext, hi8 nn, lo8 nn]

/-- An 8-bit source with its four opcodes (R95). -/
def Src8.encode (imm dir idx ext : Byte) : Src8 → List Byte
  | .imm n => [imm, n]
  | .mem m => m.encode dir idx ext

/-- A 16-bit source with its four opcodes (R95). -/
def Src16.encode (imm dir idx ext : Byte) : Src16 → List Byte
  | .imm nn => [imm, hi8 nn, lo8 nn]
  | .mem m => m.encode dir idx ext

/-- The code of a register in a TFR or EXG postbyte (R313). -/
def AnyReg.code : AnyReg → BitVec 4
  | .wide .d => 0#4
  | .wide .x => 1#4
  | .wide .y => 2#4
  | .wide .u => 3#4
  | .wide .s => 4#4
  | .wide .pc => 5#4
  | .byte .a => 8#4
  | .byte .b => 9#4
  | .byte .cc => 10#4
  | .byte .dp => 11#4

/-- The words of an instruction (R111 to R113). An alias has its primary name's words (R120). -/
def encode : Instr → List Byte
  | .abx => [0x3A#8]
  | .adca src => src.encode 0x89 0x99 0xA9 0xB9
  | .adcb src => src.encode 0xC9 0xD9 0xE9 0xF9
  | .adda src => src.encode 0x8B 0x9B 0xAB 0xBB
  | .addb src => src.encode 0xCB 0xDB 0xEB 0xFB
  | .addd src => src.encode 0xC3 0xD3 0xE3 0xF3
  | .clr m => m.encode 0x0F 0x6F 0x7F
  | .clra => [0x4F#8]
  | .clrb => [0x5F#8]
  | .cmpa src => src.encode 0x81 0x91 0xA1 0xB1
  | .cmpb src => src.encode 0xC1 0xD1 0xE1 0xF1
  | .cmpd src => 0x10#8 :: src.encode 0x83 0x93 0xA3 0xB3
  | .cmps src => 0x11#8 :: src.encode 0x8C 0x9C 0xAC 0xBC
  | .cmpu src => 0x11#8 :: src.encode 0x83 0x93 0xA3 0xB3
  | .cmpx src => src.encode 0x8C 0x9C 0xAC 0xBC
  | .cmpy src => 0x10#8 :: src.encode 0x8C 0x9C 0xAC 0xBC
  | .daa => [0x19#8]
  | .dec m => m.encode 0x0A 0x6A 0x7A
  | .deca => [0x4A#8]
  | .decb => [0x5A#8]
  | .inc m => m.encode 0x0C 0x6C 0x7C
  | .inca => [0x4C#8]
  | .incb => [0x5C#8]
  | .mul => [0x3D#8]
  | .neg m => m.encode 0x00 0x60 0x70
  | .nega => [0x40#8]
  | .negb => [0x50#8]
  | .sbca src => src.encode 0x82 0x92 0xA2 0xB2
  | .sbcb src => src.encode 0xC2 0xD2 0xE2 0xF2
  | .sex => [0x1D#8]
  | .suba src => src.encode 0x80 0x90 0xA0 0xB0
  | .subb src => src.encode 0xC0 0xD0 0xE0 0xF0
  | .subd src => src.encode 0x83 0x93 0xA3 0xB3
  | .tst m => m.encode 0x0D 0x6D 0x7D
  | .tsta => [0x4D#8]
  | .tstb => [0x5D#8]
  | .anda src => src.encode 0x84 0x94 0xA4 0xB4
  | .andb src => src.encode 0xC4 0xD4 0xE4 0xF4
  | .andcc n => [0x1C#8, n]
  | .asl m => m.encode 0x08 0x68 0x78
  | .asla => [0x48#8]
  | .aslb => [0x58#8]
  | .asr m => m.encode 0x07 0x67 0x77
  | .asra => [0x47#8]
  | .asrb => [0x57#8]
  | .bita src => src.encode 0x85 0x95 0xA5 0xB5
  | .bitb src => src.encode 0xC5 0xD5 0xE5 0xF5
  | .com m => m.encode 0x03 0x63 0x73
  | .coma => [0x43#8]
  | .comb => [0x53#8]
  | .eora src => src.encode 0x88 0x98 0xA8 0xB8
  | .eorb src => src.encode 0xC8 0xD8 0xE8 0xF8
  | .lsl m => m.encode 0x08 0x68 0x78
  | .lsla => [0x48#8]
  | .lslb => [0x58#8]
  | .lsr m => m.encode 0x04 0x64 0x74
  | .lsra => [0x44#8]
  | .lsrb => [0x54#8]
  | .ora src => src.encode 0x8A 0x9A 0xAA 0xBA
  | .orb src => src.encode 0xCA 0xDA 0xEA 0xFA
  | .orcc n => [0x1A#8, n]
  | .rol m => m.encode 0x09 0x69 0x79
  | .rola => [0x49#8]
  | .rolb => [0x59#8]
  | .ror m => m.encode 0x06 0x66 0x76
  | .rora => [0x46#8]
  | .rorb => [0x56#8]
  | .lda src => src.encode 0x86 0x96 0xA6 0xB6
  | .ldb src => src.encode 0xC6 0xD6 0xE6 0xF6
  | .ldd src => src.encode 0xCC 0xDC 0xEC 0xFC
  | .lds src => 0x10#8 :: src.encode 0xCE 0xDE 0xEE 0xFE
  | .ldu src => src.encode 0xCE 0xDE 0xEE 0xFE
  | .ldx src => src.encode 0x8E 0x9E 0xAE 0xBE
  | .ldy src => 0x10#8 :: src.encode 0x8E 0x9E 0xAE 0xBE
  | .leax p => 0x30#8 :: p.bytes
  | .leay p => 0x31#8 :: p.bytes
  | .leas p => 0x32#8 :: p.bytes
  | .leau p => 0x33#8 :: p.bytes
  | .sta m => m.encode 0x97 0xA7 0xB7
  | .stb m => m.encode 0xD7 0xE7 0xF7
  | .std m => m.encode 0xDD 0xED 0xFD
  | .sts m => 0x10#8 :: m.encode 0xDF 0xEF 0xFF
  | .stu m => m.encode 0xDF 0xEF 0xFF
  | .stx m => m.encode 0x9F 0xAF 0xBF
  | .sty m => 0x10#8 :: m.encode 0x9F 0xAF 0xBF
  | .tfr r1 r2 => [0x1F#8, r1.code ++ r2.code]
  | .exg r1 r2 => [0x1E#8, r1.code ++ r2.code]
  | .pshs mask => [0x34#8, mask]
  | .pshu mask => [0x36#8, mask]
  | .puls mask => [0x35#8, mask]
  | .pulu mask => [0x37#8, mask]
  | .bcc off => [0x24#8, off]
  | .bcs off => [0x25#8, off]
  | .beq off => [0x27#8, off]
  | .bge off => [0x2C#8, off]
  | .bgt off => [0x2E#8, off]
  | .bhi off => [0x22#8, off]
  | .bhs off => [0x24#8, off]
  | .ble off => [0x2F#8, off]
  | .blo off => [0x25#8, off]
  | .bls off => [0x23#8, off]
  | .blt off => [0x2D#8, off]
  | .bmi off => [0x2B#8, off]
  | .bne off => [0x26#8, off]
  | .bpl off => [0x2A#8, off]
  | .bra off => [0x20#8, off]
  | .brn off => [0x21#8, off]
  | .bsr off => [0x8D#8, off]
  | .bvc off => [0x28#8, off]
  | .bvs off => [0x29#8, off]
  | .jmp m => m.encode 0x0E 0x6E 0x7E
  | .jsr m => m.encode 0x9D 0xAD 0xBD
  | .lbrn off => [0x10#8, 0x21#8, hi8 off, lo8 off]
  | .lbhi off => [0x10#8, 0x22#8, hi8 off, lo8 off]
  | .lbls off => [0x10#8, 0x23#8, hi8 off, lo8 off]
  | .lbcc off => [0x10#8, 0x24#8, hi8 off, lo8 off]
  | .lbhs off => [0x10#8, 0x24#8, hi8 off, lo8 off]
  | .lbcs off => [0x10#8, 0x25#8, hi8 off, lo8 off]
  | .lblo off => [0x10#8, 0x25#8, hi8 off, lo8 off]
  | .lbne off => [0x10#8, 0x26#8, hi8 off, lo8 off]
  | .lbeq off => [0x10#8, 0x27#8, hi8 off, lo8 off]
  | .lbvc off => [0x10#8, 0x28#8, hi8 off, lo8 off]
  | .lbvs off => [0x10#8, 0x29#8, hi8 off, lo8 off]
  | .lbpl off => [0x10#8, 0x2A#8, hi8 off, lo8 off]
  | .lbmi off => [0x10#8, 0x2B#8, hi8 off, lo8 off]
  | .lbge off => [0x10#8, 0x2C#8, hi8 off, lo8 off]
  | .lblt off => [0x10#8, 0x2D#8, hi8 off, lo8 off]
  | .lbgt off => [0x10#8, 0x2E#8, hi8 off, lo8 off]
  | .lble off => [0x10#8, 0x2F#8, hi8 off, lo8 off]
  | .lbra off => [0x16#8, hi8 off, lo8 off]
  | .lbsr off => [0x17#8, hi8 off, lo8 off]
  | .nop => [0x12#8]
  | .rts => [0x39#8]
  | .swi => [0x3F#8]
  | .swi2 => [0x10#8, 0x3F#8]
  | .swi3 => [0x11#8, 0x3F#8]
  | .rti => [0x3B#8]
  | .cwai n => [0x3C#8, n]
  | .sync => [0x13#8]

end Sys2Proof
end

