-- ==== Sys2Proof/Machine/Fetch.lean ====
section
/-! DEFINITION. Fetching an instruction (spec/20_memory.md R78, spec/30_encoding.md R110) and what happens at an
instruction boundary (spec/60_exceptions.md R407). -/

namespace Sys2Proof.Machine

/-- The step has no meaning: what it answers is `UNDEF_OPCODE_POLICY` (R6, R114, D7; log 14). -/
def undefinedOpcodeStop {α : Type} (s : State) : Result α :=
  match s.policies.undefOpcode with
  | .refuse => .refused .undefinedOpcode
  | .fault => .fault .undefinedOpcode

/-- Fetch bytes at PC, one at a time, until they are an instruction or none begins with them (R78, R110): only the
instruction's own bytes are read. `got` are the bytes fetched so far, `fuel` how many more the longest
instruction may have. -/
def fetchInstr (fuel : Nat) (got : List Byte) (s : State) : Result (Instr × State) :=
  match decode got with
  | .ok i _ => .next (i, s)
  | .undefinedOpcode => undefinedOpcodeStop s
  | .undefinedPostbyte => .refused .undefinedPostbyte
  | .undefinedRegisterCode => .refused .undefinedRegisterCode
  | .short =>
    match fuel with
    | 0 => undefinedOpcodeStop s
    | fuel + 1 => (fetch8 s).andThen fun (b, t) => fetchInstr fuel (got ++ [b]) t

/-- The longest instruction has five bytes (R90). -/
def maxLength : Nat := 5

/-- The inputs of a boundary at which nothing is active (D21). -/
def Inputs.inactive : Inputs :=
  { nmiEdge := false, firqLevel := false, irqLevel := false, resetLevel := false }

/-- The inputs of this boundary: the next sample, or none active when there is none left (log 8). -/
def State.sample (s : State) : Inputs :=
  match s.inputs with
  | [] => Inputs.inactive
  | i :: _ => i

/-- The state with this boundary's sample taken. -/
def State.sampled (s : State) : State := { s with inputs := s.inputs.tail }

/-- Step 2 of R407: an NMI edge is latched when NMI is armed (R39, R404). -/
def latchNmi (i : Inputs) (s : State) : State :=
  { s with nmiPending := s.nmiPending || (i.nmiEdge && s.nmiArmed) }

/-- The interrupt taken at this boundary, in order of priority (step 4 of R407, R408). -/
def accepted (i : Inputs) (s : State) : Option Event :=
  if s.nmiPending then some .nmi
  else if i.firqLevel && !s.flag .f then some .firq
  else if i.irqLevel && !s.flag .i then some .irq
  else none

/-- Is any interrupt input active, masked or not (R395)? -/
def anyActive (i : Inputs) (s : State) : Bool := s.nmiPending || i.firqLevel || i.irqLevel

/-- Steps 4 and 5 of R407: take the interrupt, or run one instruction. -/
def takeOrRun (run : State → Result State) (i : Inputs) (s : State) : Result State :=
  match accepted i s with
  | some ev => takeInterrupt ev s
  | none => run s

/-- Step 3 of R407: what each run state does, after the latch. -/
def runStateStep (run : State → Result State) (i : Inputs) (s : State) : Result State :=
  match s.runState with
  | .cwaiWait =>
    match accepted i s with
    | some ev => enterAfterCwai ev s
    | none => .next s
  | .syncWait =>
    if anyActive i s then takeOrRun run i { s with runState := .running } else .next s
  | .running => takeOrRun run i s

/-- One step of the machine, `run` being step 5 (R407): sample, reset, latch, then by run state. -/
def boundary (run : State → Result State) (s : State) : Result State :=
  if s.sample.resetLevel then resetSequence s.sampled
  else runStateStep run s.sample (latchNmi s.sample s.sampled)

/-- Memory with bytes at consecutive addresses, modulo 65536. -/
def pokeBytes (addr : Word) (bs : List Byte) (s : State) : State :=
  match bs with
  | [] => s
  | b :: rest => pokeBytes (addr + 1#16) rest (s.poke addr b)

/-- A state whose next step fetches at PC: running, no interrupt pending, no sample to come (log 29). -/
def State.readyToFetch (s : State) : State :=
  { s with runState := .running, nmiPending := false, inputs := [] }

end Sys2Proof.Machine
end

