-- ==== Sys2Proof/Machine/Step.lean ====
section
/-! DEFINITION. One step of the machine (spec/60_exceptions.md R407). -/

namespace Sys2Proof.Machine

/-- Step 5 of R407: fetch, decode and execute one instruction. -/
def runInstr (s : State) : Host.Outcome State Fault Refusal :=
  (fetchInstr maxLength [] s).andThen fun (i, t) => exec i t

/-- One step (R407). -/
def step (s : State) : Host.Outcome State Fault Refusal := boundary runInstr s

/-- `s` with a word of the opcode table, as an instruction filled up with zeros, at PC, so that the next
step fetches it (log 2, log 29). -/
def State.withFetchWord (s : State) (nbits w : Nat) : State :=
  pokeBytes s.pc (tableBytes nbits w) s.readyToFetch

end Sys2Proof.Machine
end

