-- ==== Sys2Proof/Safety.lean ====
section
/-! DEFINITION. The words claims are made in: what a change leaves alone, the invariant of the state, which
instructions may change what, safe runs and the end of a run. -/

namespace Sys2Proof.Machine

/-! ## What a change leaves alone -/

/-- The registers other than CC, by name. -/
inductive RegName where
  | a | b | x | y | u | s | pc | dp
deriving DecidableEq, Repr

/-- The value of a register, an 8-bit one extended by zeros. -/
def State.reg (r : RegName) (st : State) : Word :=
  match r with
  | .a => zext8 st.a
  | .b => zext8 st.b
  | .x => st.x
  | .y => st.y
  | .u => st.u
  | .s => st.s
  | .pc => st.pc
  | .dp => zext8 st.dp

/-- From `s` to `t` only the listed registers, flags and bytes of memory may differ: every other register (PC
included), flag and byte, and `nmi_armed`, `nmi_pending`, `run_state`, the memory map, the policies and the
inputs to come are as they were. -/
structure ChangesOnly (regs : List RegName) (flags : List Flag) (bytes : List Word) (s t : State) : Prop where
  regs : ∀ r, r ∉ regs → t.reg r = s.reg r
  flags : ∀ g, g ∉ flags → t.flag g = s.flag g
  bytes : ∀ addr, addr ∉ bytes → t.byteAt addr = s.byteAt addr
  armed : t.nmiArmed = s.nmiArmed
  pending : t.nmiPending = s.nmiPending
  runState : t.runState = s.runState
  memMap : t.memMap = s.memMap
  policies : t.policies = s.policies
  inputs : t.inputs = s.inputs

end Sys2Proof.Machine

namespace Sys2Proof

/-- The name of a 16-bit register's storage (R22: D is A and B). -/
def Reg16.names : Reg16 → List Machine.RegName
  | .d => [.a, .b]
  | .x => [.x]
  | .y => [.y]
  | .u => [.u]
  | .s => [.s]
  | .pc => [.pc]

/-- The name of an 8-bit register's storage; CC is its flags. -/
def Reg8.names : Reg8 → List Machine.RegName
  | .a => [.a]
  | .b => [.b]
  | .cc => []
  | .dp => [.dp]

/-- The name of an index register. -/
def IndexReg.name : IndexReg → Machine.RegName
  | .x => .x
  | .y => .y
  | .u => .u
  | .s => .s

end Sys2Proof

namespace Sys2Proof.Machine

/-- The name of a stack pointer. -/
def StackReg.name : StackReg → RegName
  | .s => .s
  | .u => .u

/-! ## Operands -/

/-- The register an indexed operand also updates: its index register under automatic increment or decrement
(R153 to R156). -/
def updatesIndexed : Indexed → List RegName
  | .form r .postInc1 _ => [r.name]
  | .form r .postInc2 _ => [r.name]
  | .form r .preDec1 _ => [r.name]
  | .form r .preDec2 _ => [r.name]
  | _ => []

/-- The register a memory operand also updates. -/
def updatesMem : Mem → List RegName
  | .indexed p => updatesIndexed p
  | .direct _ => []
  | .extended _ => []

/-- The register an 8-bit source also updates. -/
def updates8 : Src8 → List RegName
  | .imm _ => []
  | .mem m => updatesMem m

/-- The register a 16-bit source also updates. -/
def updates16 : Src16 → List RegName
  | .imm _ => []
  | .mem m => updatesMem m

/-- All eight flags. -/
def allFlags : List Flag := [.e, .f, .h, .i, .n, .z, .v, .c]

/-! ## Addresses -/

/-- The `n` addresses from `addr` on, modulo 65536. -/
def addresses (addr : Word) (n : Nat) : List Word := (List.range n).map fun k => addr + BitVec.ofNat 16 k

/-- Every address is RAM and holds a byte. -/
def State.FullRam (s : State) : Prop := ∀ addr, s.Writes addr ∧ ∃ v, s.Reads addr v

/-! ## Invariants -/

/-- What every step keeps: the memory is in canonical form, and an NMI is latched only while NMI is armed (R39,
R404). -/
def State.Inv (s : State) : Prop := Memory.wf s.mem ∧ (s.nmiPending = true → s.nmiArmed = true)

/-! ## Which instructions may change what -/

/-- The instructions that arm NMI, `set` being `NMI_ARM_SET`: of those that write S explicitly (R38, R404). -/
def armsNmi (set : Config.NmiArmSet) (i : Instr) : Prop :=
  (set.lds = true ∧ ∃ src, i = .lds src) ∨ (set.leas = true ∧ ∃ p, i = .leas p) ∨
    (set.tfr = true ∧ ∃ r, i = .tfr r (.wide .s)) ∨
    (set.exg = true ∧ ∃ r, i = .exg r (.wide .s) ∨ i = .exg (.wide .s) r) ∨
    (set.pulu = true ∧ ∃ mask : Byte, i = .pulu mask ∧ mask.getLsbD 6 = true)

/-- The instructions that write CC as a whole, and the software interrupts: the only ones that may change E, F
or I (R28, R29, R31). -/
def mayChangeMasks (i : Instr) : Prop :=
  (∃ n, i = .andcc n) ∨ (∃ n, i = .orcc n) ∨ (∃ n, i = .cwai n) ∨ (∃ r, i = .tfr r (.byte .cc)) ∨
    (∃ r, i = .exg r (.byte .cc)) ∨ (∃ r, i = .exg (.byte .cc) r) ∨
    (∃ mask : Byte, (i = .puls mask ∨ i = .pulu mask) ∧ mask.getLsbD 0 = true) ∨
    i = .rti ∨ i = .swi ∨ i = .swi2 ∨ i = .swi3

/-- The instructions that may write DP: TFR, EXG, PULS, PULU, RTI (R26). -/
def mayChangeDp (i : Instr) : Prop :=
  (∃ r, i = .tfr r (.byte .dp)) ∨ (∃ r, i = .exg r (.byte .dp)) ∨ (∃ r, i = .exg (.byte .dp) r) ∨
    (∃ mask : Byte, (i = .puls mask ∨ i = .pulu mask) ∧ mask.getLsbD 3 = true) ∨ i = .rti

/-- The instructions with a write in R66's table: stores, read-modify-writes, CLR, calls, pushes, software
interrupts, CWAI. -/
def mayStore : Instr → Bool
  | .abx => false
  | .adca _ => false
  | .adcb _ => false
  | .adda _ => false
  | .addb _ => false
  | .addd _ => false
  | .clr _ => true
  | .clra => false
  | .clrb => false
  | .cmpa _ => false
  | .cmpb _ => false
  | .cmpd _ => false
  | .cmps _ => false
  | .cmpu _ => false
  | .cmpx _ => false
  | .cmpy _ => false
  | .daa => false
  | .dec _ => true
  | .deca => false
  | .decb => false
  | .inc _ => true
  | .inca => false
  | .incb => false
  | .mul => false
  | .neg _ => true
  | .nega => false
  | .negb => false
  | .sbca _ => false
  | .sbcb _ => false
  | .sex => false
  | .suba _ => false
  | .subb _ => false
  | .subd _ => false
  | .tst _ => false
  | .tsta => false
  | .tstb => false
  | .anda _ => false
  | .andb _ => false
  | .andcc _ => false
  | .asl _ => true
  | .asla => false
  | .aslb => false
  | .asr _ => true
  | .asra => false
  | .asrb => false
  | .bita _ => false
  | .bitb _ => false
  | .com _ => true
  | .coma => false
  | .comb => false
  | .eora _ => false
  | .eorb _ => false
  | .lsl _ => true
  | .lsla => false
  | .lslb => false
  | .lsr _ => true
  | .lsra => false
  | .lsrb => false
  | .ora _ => false
  | .orb _ => false
  | .orcc _ => false
  | .rol _ => true
  | .rola => false
  | .rolb => false
  | .ror _ => true
  | .rora => false
  | .rorb => false
  | .lda _ => false
  | .ldb _ => false
  | .ldd _ => false
  | .lds _ => false
  | .ldu _ => false
  | .ldx _ => false
  | .ldy _ => false
  | .leax _ => false
  | .leay _ => false
  | .leas _ => false
  | .leau _ => false
  | .sta _ => true
  | .stb _ => true
  | .std _ => true
  | .sts _ => true
  | .stu _ => true
  | .stx _ => true
  | .sty _ => true
  | .tfr _ _ => false
  | .exg _ _ => false
  | .pshs _ => true
  | .pshu _ => true
  | .puls _ => false
  | .pulu _ => false
  | .bcc _ => false
  | .bcs _ => false
  | .beq _ => false
  | .bge _ => false
  | .bgt _ => false
  | .bhi _ => false
  | .bhs _ => false
  | .ble _ => false
  | .blo _ => false
  | .bls _ => false
  | .blt _ => false
  | .bmi _ => false
  | .bne _ => false
  | .bpl _ => false
  | .bra _ => false
  | .brn _ => false
  | .bsr _ => true
  | .bvc _ => false
  | .bvs _ => false
  | .jmp _ => false
  | .jsr _ => true
  | .lbrn _ => false
  | .lbhi _ => false
  | .lbls _ => false
  | .lbcc _ => false
  | .lbhs _ => false
  | .lbcs _ => false
  | .lblo _ => false
  | .lbne _ => false
  | .lbeq _ => false
  | .lbvc _ => false
  | .lbvs _ => false
  | .lbpl _ => false
  | .lbmi _ => false
  | .lbge _ => false
  | .lblt _ => false
  | .lbgt _ => false
  | .lble _ => false
  | .lbra _ => false
  | .lbsr _ => true
  | .nop => false
  | .rts => false
  | .swi => true
  | .swi2 => true
  | .swi3 => true
  | .rti => false
  | .cwai _ => true
  | .sync => false

/-! ## Runs -/

/-- `k` steps from `s` meet no fault and no refusal. -/
def RunsSafely (k : Nat) (s : State) : Prop := ∃ t, core.run k s = .next t

/-- A branch to itself: `20 FE`, `16 FF FD`, or `7E` to its own address (D15). `start` is the address of its first byte. -/
def isSelfBranch (i : Instr) (start : Word) : Prop :=
  i = .bra 0xFE ∨ i = .lbra 0xFFFD ∨ i = .jmp (.extended start)

/-- The end of a run (D15; log 26): PC is `HALT_PC` at a boundary; or, with no `HALT_PC`, the instruction at PC is a
branch to itself with no interrupt pending or to come; or a wait that no input to come ends. -/
def Finished (haltPc : Option Word) (s : State) : Prop :=
  haltPc = some s.pc ∨
    (haltPc = none ∧ s.runState = .running ∧ s.inputs = [] ∧ s.nmiPending = false ∧
      ∃ i t, fetchInstr maxLength [] s = .next (i, t) ∧ isSelfBranch i s.pc) ∨
    (s.runState ≠ .running ∧ s.inputs = [] ∧ s.nmiPending = false)

end Sys2Proof.Machine
end

