-- ==== Sys2Proof/Certificates/Slice0/Obligations.lean ====
section
/-! DEFINITION. The statements for the provers, and the vocabulary they share. A statement gives results as
numbers or bit by bit, as the rules of spec/ do, and says what else stays as it was (`ChangesOnly`). In
statements about an instruction `s` is the state with PC past the instruction (R25). -/

namespace Sys2Proof.Claims

open Sys2Proof.Machine

/-! ## Operands and frames -/

/-- The state, with NMI armed if the instruction arms it (R38, R404). -/
def armedIf (arm : Bool) (s : State) : State := if arm then { s with nmiArmed := true } else s

/-- `exec i s` answers a next state `u` of which `P` holds. `t` is `s` after the operand was read or its address
computed, `upd` the register that updates. From `t` only `regs`, `flags` and `bytes` change, from `s` also `upd`;
NMI is armed if `arm`; `log` is every access that has reached a device, the latest first. -/
def CompletesWith (log : List Config.DeviceAccess) (i : Instr) (s t : State) (arm : Bool) (upd regs : List RegName)
    (flags : List Flag) (bytes : List Word) (P : State → Prop) : Prop :=
  ∃ u, exec i s = .next u ∧ ChangesOnly regs flags bytes (armedIf arm t) u ∧
    ChangesOnly (upd ++ regs) flags bytes (armedIf arm s) u ∧ u.deviceLog = log ∧ P u

/-- The same, where after `t` no access reaches a device. -/
def Completes (i : Instr) (s t : State) (arm : Bool) (upd regs : List RegName) (flags : List Flag)
    (bytes : List Word) (P : State → Prop) : Prop :=
  CompletesWith t.deviceLog i s t arm upd regs flags bytes P

/-- What stands at an address is a device, and it takes an access (R68). -/
def Serves (s : State) (acc : Config.Access) (addr : Word) (d : Config.Device) : Prop :=
  s.kind addr = .device d ∧ (acc = .plain ∨ d.sensitive = false)

/-- No change but one more access of a device. -/
def Reached (s : State) (d : Config.Device) (addr : Word) (wrote : Option Byte) : State :=
  { s with deviceLog := ⟨d, addr, wrote⟩ :: s.deviceLog }

/-- What a step answers on an undefined opcode (D7). -/
def undefinedAnswer : Config.UndefPolicy → Host.Outcome State Fault Refusal
  | .refuse => .refused .undefinedOpcode
  | .fault => .fault .undefinedOpcode

/-- The bit of CC a flag is (R27). -/
def bitOf : Flag → Nat
  | .e => 7
  | .f => 6
  | .h => 5
  | .i => 4
  | .n => 3
  | .z => 2
  | .v => 1
  | .c => 0

/-- N and Z of an 8-bit value (R204). -/
def NZ8 (r : Nat) (u : State) : Prop := u.flag .n = decide (128 ≤ r) ∧ u.flag .z = decide (r = 0)

/-- N and Z of a 16-bit value (R204). -/
def NZ16 (r : Nat) (u : State) : Prop := u.flag .n = decide (32768 ≤ r) ∧ u.flag .z = decide (r = 0)

/-- A number is outside the signed 8-bit range. -/
def over8 (n : Int) : Bool := decide (n < -128 ∨ 127 < n)

/-- A number is outside the signed 16-bit range. -/
def over16 (n : Int) : Bool := decide (n < -32768 ∨ 32767 < n)

/-! ## Stacks -/

/-- The bytes a push with postbyte `mask` on stack `r` leaves, from the final stack pointer upward (R318), the
registers being those of `v`. -/
def stackBytes (r : StackReg) (mask : Byte) (v : State) : List Byte :=
  let one (k : Nat) (b : Byte) : List Byte := if mask.getLsbD k then [b] else []
  let two (k : Nat) (w : Word) : List Byte := if mask.getLsbD k then [hi8 w, lo8 w] else []
  one 0 v.cc ++ one 1 v.a ++ one 2 v.b ++ one 3 v.dp ++ two 4 v.x ++ two 5 v.y ++
    two 6 (match r with | .s => v.u | .u => v.s) ++ two 7 v.pc

/-- Reading `bs` from `addr` on succeeds, address by address modulo 65536. -/
def Holds (s : State) (addr : Word) (bs : List Byte) : Prop :=
  ∀ (k : Nat) (v : Byte), bs[k]? = some v → s.Reads (addr + BitVec.ofNat 16 k) v

/-- The `n` bytes from `addr` on can be written. -/
def Takes (s : State) (addr : Word) (n : Nat) : Prop := ∀ k < n, s.Writes (addr + BitVec.ofNat 16 k)

/-- The memory of `u` has `bs` from `addr` on. -/
def Stored (u : State) (addr : Word) (bs : List Byte) : Prop :=
  ∀ (k : Nat) (v : Byte), bs[k]? = some v → u.byteAt (addr + BitVec.ofNat 16 k) = some v

/-- `m` has the memory of `s` with `bs` stored from `addr` on. -/
def WithStored (s : State) (addr : Word) (bs : List Byte) (m : State) : Prop :=
  m.memMap = s.memMap ∧ Stored m addr bs ∧ ∀ a, a ∉ addresses addr bs.length → m.byteAt a = s.byteAt a

/-- The registers other than CC that a pull with postbyte `mask` from stack `r` loads (R107, R318). -/
def selected (r : StackReg) (mask : Byte) : List RegName :=
  let one (k : Nat) (n : RegName) : List RegName := if mask.getLsbD k then [n] else []
  one 1 .a ++ one 2 .b ++ one 3 .dp ++ one 4 .x ++ one 5 .y ++
    one 6 (match r with | .s => .u | .u => .s) ++ one 7 .pc

/-- The selected registers of `u`, CC among them, are those of `v`. -/
def Restored (r : StackReg) (mask : Byte) (v u : State) : Prop :=
  (mask.getLsbD 0 = true → u.cc = v.cc) ∧ ∀ n ∈ selected r mask, u.reg n = v.reg n

/-- The push instruction of a stack. -/
def psh : StackReg → Byte → Instr
  | .s => .pshs
  | .u => .pshu

/-- The pull instruction of a stack. -/
def pul : StackReg → Byte → Instr
  | .s => .puls
  | .u => .pulu

/-! ## Interrupts -/

/-- An NMI is pending at this boundary: latched before, or an edge now while NMI is armed (R404, R407). -/
def NmiRequested (s : State) : Prop := s.nmiPending = true ∨ (s.sample.nmiEdge = true ∧ s.nmiArmed = true)

/-- The interrupt taken at this boundary, by priority (R407 step 4, R408). -/
def Accepts (s : State) : Event → Prop
  | .nmi => NmiRequested s
  | .firq => ¬NmiRequested s ∧ s.sample.firqLevel = true ∧ s.flag .f = false
  | .irq => ¬NmiRequested s ∧ ¬(s.sample.firqLevel = true ∧ s.flag .f = false) ∧
      s.sample.irqLevel = true ∧ s.flag .i = false
  | .swi => False
  | .swi2 => False
  | .swi3 => False

/-- One row of R400 and R411: the vector, E as stacked, the postbyte of what is stacked, the masks set. -/
structure EntryRow where
  vector : Word
  entire : Bool
  mask : Byte
  sets : List Flag

/-- The rows of R400 and R411 for the six events. -/
def entryRow : Event → EntryRow
  | .nmi => ⟨0xFFFC, true, 0xFF, [.f, .i]⟩
  | .swi => ⟨0xFFFA, true, 0xFF, [.f, .i]⟩
  | .irq => ⟨0xFFF8, true, 0xFF, [.i]⟩
  | .firq => ⟨0xFFF6, false, 0x81, [.f, .i]⟩
  | .swi2 => ⟨0xFFF4, true, 0xFF, []⟩
  | .swi3 => ⟨0xFFF2, true, 0xFF, []⟩

/-- The frame an event stacks: the registers with E as the row has it and the masks as they were (R409, R410). -/
def frameOf (row : EntryRow) (s : State) : List Byte :=
  stackBytes .s row.mask { s with cc := if row.entire then s.cc ||| 0x80#8 else s.cc &&& 0x7F#8 }

/-- `answer` is the entry of an event from `s`, wherever the frame can be stored and the vector read after that:
the frame stacked on S, E, the masks and PC set, and from `b` nothing else changed. -/
def Enters (row : EntryRow) (s b : State) (answer : Host.Outcome State Fault Refusal) : Prop :=
  let bs := frameOf row s
  let sp := s.s - BitVec.ofNat 16 bs.length
  ∀ (m : State) (hi lo : Byte), Takes s sp bs.length → WithStored s sp bs m → m.Reads16 row.vector hi lo →
    ∃ u, answer = .next u ∧ u.s = sp ∧ Stored u sp bs ∧ u.pc.toNat = 256 * hi.toNat + lo.toNat ∧
      u.flag .e = row.entire ∧ (∀ g ∈ row.sets, u.flag g = true) ∧
      ChangesOnly [.s, .pc] (.e :: row.sets) (addresses sp bs.length) b u ∧ u.deviceLog = b.deviceLog

/-! ## Tables of instructions of one shape -/

/-- Instruction, register, whether C is added or subtracted as well. -/
abbrev CarryRow := (Src8 → Instr) × Reg8 × Bool

/-- R211, R212. -/
def byteAdditions : List CarryRow :=
  [(.adda, .a, false), (.addb, .b, false), (.adca, .a, true), (.adcb, .b, true)]

/-- R229, R231. -/
def byteSubtractions : List CarryRow :=
  [(.suba, .a, false), (.subb, .b, false), (.sbca, .a, true), (.sbcb, .b, true)]

/-- R260, R269, R274: the operation on one bit. -/
def byteLogic : List ((Src8 → Instr) × Reg8 × (Bool → Bool → Bool)) :=
  [(.anda, .a, fun p q => p && q), (.andb, .b, fun p q => p && q), (.ora, .a, fun p q => p || q),
    (.orb, .b, fun p q => p || q), (.eora, .a, fun p q => p != q), (.eorb, .b, fun p q => p != q)]

/-- R217 to R220. -/
def wordCompares : List ((Src16 → Instr) × Reg16) :=
  [(.cmpd, .d), (.cmps, .s), (.cmpu, .u), (.cmpx, .x), (.cmpy, .y)]

/-- R301 to R304, and whether the load is of S. -/
def wordLoads : List ((Src16 → Instr) × Reg16 × Bool) :=
  [(.ldd, .d, false), (.lds, .s, true), (.ldu, .u, false), (.ldx, .x, false), (.ldy, .y, false)]

/-- R307 to R310. -/
def wordStores : List ((Mem → Instr) × Reg16) :=
  [(.std, .d), (.sts, .s), (.stu, .u), (.stx, .x), (.sty, .y)]

/-- What an operation on one byte gives: the new byte, the flags with their values, the flags left open under either
policy, and those left open that `FLAG_POLICY = motorola` keeps unchanged (R205). -/
structure Effect where
  result : Nat
  sets : List (Flag × Bool)
  opens : List Flag
  kept : List Flag

/-- An effect with N and Z of its result. -/
def effectNZ (r : Nat) (sets : List (Flag × Bool)) (opens kept : List Flag) : Effect :=
  ⟨r, (.n, decide (128 ≤ r)) :: (.z, decide (r = 0)) :: sets, opens, kept⟩

/-- NEG (R227, R228). -/
def negEffect (v : Nat) (_ : Bool) : Effect :=
  effectNZ ((256 - v) % 256) [(.v, decide (v = 128)), (.c, decide (v ≠ 0))] [.h] []

/-- COM (R267, R268). -/
def comEffect (v : Nat) (_ : Bool) : Effect := effectNZ (255 - v) [(.v, false), (.c, true)] [] []

/-- INC (R224, R225). -/
def incEffect (v : Nat) (_ : Bool) : Effect := effectNZ ((v + 1) % 256) [(.v, decide (v = 127))] [] []

/-- DEC (R222, R223). -/
def decEffect (v : Nat) (_ : Bool) : Effect := effectNZ ((v + 255) % 256) [(.v, decide (v = 128))] [] []

/-- Bit 7 and bit 6 of a byte differ. -/
def topBitsDiffer (v : Nat) : Bool := decide (64 ≤ v ∧ v < 192)

/-- ASL, LSL (R262, R263, R270, R271). -/
def aslEffect (v : Nat) (_ : Bool) : Effect :=
  effectNZ (2 * v % 256) [(.v, topBitsDiffer v), (.c, decide (128 ≤ v))] [.h] []

/-- ASR (R264, R265). -/
def asrEffect (v : Nat) (_ : Bool) : Effect :=
  effectNZ (v / 2 + if 128 ≤ v then 128 else 0) [(.c, decide (v % 2 = 1))] [.h] [.v]

/-- LSR (R272, R273): N is 0, as that of a result below 128 is. -/
def lsrEffect (v : Nat) (_ : Bool) : Effect := effectNZ (v / 2) [(.n, false), (.c, decide (v % 2 = 1))] [] [.v]

/-- ROL (R276, R277). -/
def rolEffect (v : Nat) (c : Bool) : Effect :=
  effectNZ (2 * v % 256 + if c then 1 else 0) [(.v, topBitsDiffer v), (.c, decide (128 ≤ v))] [] []

/-- ROR (R278, R279). -/
def rorEffect (v : Nat) (c : Bool) : Effect :=
  effectNZ (v / 2 + if c then 128 else 0) [(.c, decide (v % 2 = 1))] [] [.v]

/-- The memory form, the A form, the B form and the effect of each unary operation on a byte. -/
structure UnaryRow where
  mem : Mem → Instr
  accA : Instr
  accB : Instr
  effect : Nat → Bool → Effect

/-- R222 to R228, R262 to R279. -/
def unaryRows : List UnaryRow :=
  [⟨.neg, .nega, .negb, negEffect⟩, ⟨.com, .coma, .comb, comEffect⟩, ⟨.inc, .inca, .incb, incEffect⟩,
    ⟨.dec, .deca, .decb, decEffect⟩, ⟨.asl, .asla, .aslb, aslEffect⟩, ⟨.lsl, .lsla, .lslb, aslEffect⟩,
    ⟨.asr, .asra, .asrb, asrEffect⟩, ⟨.lsr, .lsra, .lsrb, lsrEffect⟩, ⟨.rol, .rola, .rolb, rolEffect⟩,
    ⟨.ror, .rora, .rorb, rorEffect⟩]

/-- The flags an effect may write. -/
def Effect.flags (e : Effect) : List Flag := e.sets.map (fun p => p.1) ++ e.opens ++ e.kept

/-- The flags of `u` are what an effect from `s` makes of them. -/
def Effect.holds (e : Effect) (s u : State) : Prop :=
  (∀ p ∈ e.sets, u.flag p.1 = p.2) ∧ ∀ g ∈ e.kept, s.policies.flags = .motorola → u.flag g = s.flag g

/-- The short and the long form of a branch, and when it is taken, from N, Z, V, C (R340). -/
structure BranchRow where
  short : Byte → Instr
  long : Word → Instr
  taken : Bool → Bool → Bool → Bool → Bool

/-- R340. -/
def branchRows : List BranchRow :=
  [⟨.bra, .lbra, fun _ _ _ _ => true⟩,
    ⟨.brn, .lbrn, fun _ _ _ _ => false⟩,
    ⟨.bhi, .lbhi, fun _ z _ c => !c && !z⟩,
    ⟨.bls, .lbls, fun _ z _ c => c || z⟩,
    ⟨.bcc, .lbcc, fun _ _ _ c => !c⟩,
    ⟨.bhs, .lbhs, fun _ _ _ c => !c⟩,
    ⟨.bcs, .lbcs, fun _ _ _ c => c⟩,
    ⟨.blo, .lblo, fun _ _ _ c => c⟩,
    ⟨.bne, .lbne, fun _ z _ _ => !z⟩,
    ⟨.beq, .lbeq, fun _ z _ _ => z⟩,
    ⟨.bvc, .lbvc, fun _ _ v _ => !v⟩,
    ⟨.bvs, .lbvs, fun _ _ v _ => v⟩,
    ⟨.bpl, .lbpl, fun n _ _ _ => !n⟩,
    ⟨.bmi, .lbmi, fun n _ _ _ => n⟩,
    ⟨.bge, .lbge, fun n _ v _ => n == v⟩,
    ⟨.blt, .lblt, fun n _ v _ => n != v⟩,
    ⟨.bgt, .lbgt, fun n z v _ => !z && n == v⟩,
    ⟨.ble, .lble, fun n z v _ => z || n != v⟩]

/-- A branch with signed offset `off`, taken or not, from PC past the branch (R163, R164, R339, R362). -/
def BranchesBy (i : Instr) (off : Int) (taken : Bool) (s : State) : Prop :=
  ∃ u, exec i s = .next u ∧
    (u.pc.toNat : Int) = (if taken then ((s.pc.toNat : Int) + off) % 65536 else s.pc.toNat) ∧
    ChangesOnly [.pc] [] [] s u

/-! ## Encodings -/

/-- R114: the 33 undefined opcodes of page 1. -/
def undefinedPage1 : List Byte :=
  [0x01, 0x02, 0x05, 0x0B, 0x14, 0x15, 0x18, 0x1B, 0x38, 0x3E, 0x41, 0x42, 0x45, 0x4B, 0x4E, 0x51, 0x52, 0x55,
    0x5B, 0x5E, 0x61, 0x62, 0x65, 0x6B, 0x71, 0x72, 0x75, 0x7B, 0x87, 0x8F, 0xC7, 0xCD, 0xCF]

/-- R112: the 38 second bytes of page 2. -/
def definedPage2 : List Byte :=
  [0x21, 0x22, 0x23, 0x24, 0x25, 0x26, 0x27, 0x28, 0x29, 0x2A, 0x2B, 0x2C, 0x2D, 0x2E, 0x2F, 0x3F, 0x83, 0x93,
    0xA3, 0xB3, 0x8C, 0x9C, 0xAC, 0xBC, 0x8E, 0x9E, 0xAE, 0xBE, 0x9F, 0xAF, 0xBF, 0xCE, 0xDE, 0xEE, 0xFE, 0xDF,
    0xEF, 0xFF]

/-- R113: the 9 second bytes of page 3. -/
def definedPage3 : List Byte := [0x3F, 0x83, 0x93, 0xA3, 0xB3, 0x8C, 0x9C, 0xAC, 0xBC]

/-- R165: the 39 undefined indexed postbytes. -/
def undefinedPostbytes : List Byte :=
  [0x87, 0x8A, 0x8E, 0x8F, 0x90, 0x92, 0x97, 0x9A, 0x9E, 0xA7, 0xAA, 0xAE, 0xAF, 0xB0, 0xB2, 0xB7, 0xBA, 0xBE,
    0xBF, 0xC7, 0xCA, 0xCE, 0xCF, 0xD0, 0xD2, 0xD7, 0xDA, 0xDE, 0xDF, 0xE7, 0xEA, 0xEE, 0xEF, 0xF0, 0xF2, 0xF7,
    0xFA, 0xFE, 0xFF]

/-- An opcode, its primary name and its second name (R120). -/
structure AliasRow where
  opcode : List Byte
  primary : Instr
  second : Instr

/-- R120: the rows that are two names for one opcode, with their operands. -/
def aliasRows (m : Mem) (off : Byte) (long : Word) : List AliasRow :=
  let shift : Byte := match m with
    | .direct _ => 0x08
    | .indexed _ => 0x68
    | .extended _ => 0x78
  [⟨[shift], .asl m, .lsl m⟩, ⟨[0x48], .asla, .lsla⟩, ⟨[0x58], .aslb, .lslb⟩,
    ⟨[0x24], .bcc off, .bhs off⟩, ⟨[0x10, 0x24], .lbcc long, .lbhs long⟩,
    ⟨[0x25], .bcs off, .blo off⟩, ⟨[0x10, 0x25], .lbcs long, .lblo long⟩]

/-- No interrupt or reset is taken at this boundary and the machine is running: the step runs an instruction
(R407 step 5). -/
def RunsInstruction (s : State) : Prop :=
  s.runState = .running ∧ s.sample.resetLevel = false ∧ ∀ ev, ¬Accepts s ev

end Sys2Proof.Claims

open Sys2Proof Sys2Proof.Machine Sys2Proof.Claims

/-! ## Encoding -/

/-- Decoding the encoded words of any well-formed instruction, whatever bytes follow, gives the instruction (an alias
gives its primary name, R120) and leaves exactly those bytes (R90, R110). -/
def Obligations.DecodeOfEncodeIsCanonical : Prop :=
  ∀ (i : Instr) (rest : List Byte), WellFormed i → decode (encode i ++ rest) = .ok i.canonical rest

/-- What the decoder reads is a block of 1 to 5 bytes that it reads as the same instruction whatever follows;
every shorter block is incomplete; the instruction is no alias, and well formed unless it is a TFR or EXG of
registers of unequal size (R90, R110, R120, R311, R312). -/
def Obligations.DecodeReadsOneBlock : Prop :=
  ∀ (bs : List Byte) (i : Instr) (rest : List Byte), decode bs = .ok i rest →
    ∃ block, bs = block ++ rest ∧ 1 ≤ block.length ∧ block.length ≤ 5 ∧
      (∀ more, decode (block ++ more) = .ok i more) ∧
      (∀ k < block.length, decode (block.take k) = .short) ∧
      i.canonical = i ∧ (WellFormed i ∨ ∃ r1 r2, i = .tfr r1 r2 ∨ i = .exg r1 r2)

/-- Words of the spec's examples decode to the instructions they stand for: one of every page and of every
format but relative-16 (R98 to R104, R106, R107, R111 to R113). -/
def Obligations.SampleWordsDecode : Prop :=
  decode [0x3A] = .ok .abx [] ∧
  decode [0x89, 0x10] = .ok (.adca (.imm 0x10)) [] ∧
  decode [0xC3, 0x01, 0x02] = .ok (.addd (.imm 0x0102)) [] ∧
  decode [0x0A, 0x10] = .ok (.dec (.direct 0x10)) [] ∧
  decode [0x7F, 0x20, 0x00] = .ok (.clr (.extended 0x2000)) [] ∧
  decode [0x6C, 0x84] = .ok (.inc (.indexed (.form .x .zero false))) [] ∧
  decode [0x30, 0x25] = .ok (.leax (.off5 .y 5)) [] ∧
  decode [0x1F, 0x8B] = .ok (.tfr (.byte .a) (.byte .dp)) [] ∧
  decode [0x34, 0x12] = .ok (.pshs 0x12) [] ∧
  decode [0x24, 0x02] = .ok (.bcc 0x02) [] ∧
  decode [0x10, 0x83, 0x12, 0x34] = .ok (.cmpd (.imm 0x1234)) [] ∧
  decode [0x11, 0x8C, 0x40, 0x00] = .ok (.cmps (.imm 0x4000)) [] ∧
  decode [0x3C, 0xEF] = .ok (.cwai 0xEF) []

/-- A step that would run an instruction whose opcode no table lists answers what `UNDEF_OPCODE_POLICY` says, a refusal or a
fault; no listed opcode byte is undefined (R6, R114, R115). -/
def Obligations.UndefinedOpcodesRefused : Prop :=
  (∀ (s : State) (op : Byte), RunsInstruction s → s.Reads s.pc op → op ∈ undefinedPage1 →
    step s = undefinedAnswer s.policies.undefOpcode) ∧
  (∀ (s : State) (p op : Byte), RunsInstruction s → Holds s s.pc [p, op] →
    (p = 0x10 ∧ op ∉ definedPage2 ∨ p = 0x11 ∧ op ∉ definedPage3) →
    step s = undefinedAnswer s.policies.undefOpcode) ∧
  (∀ (op : Byte) (rest : List Byte), op ∉ undefinedPage1 → op ≠ 0x10 → op ≠ 0x11 →
    decode (op :: rest) ≠ .undefinedOpcode) ∧
  (∀ (p op : Byte) (rest : List Byte), (p = 0x10 ∧ op ∈ definedPage2 ∨ p = 0x11 ∧ op ∈ definedPage3) →
    decode (p :: op :: rest) ≠ .undefinedOpcode)

/-- Exactly the 39 postbytes of R165's last row select no indexed form, and a step that would run LEA with one of
them is refused as such (R161). -/
def Obligations.UndefinedPostbytesRefused : Prop :=
  (∀ (pb : Byte) (rest : List Byte), decodeIndexed (pb :: rest) = .undefinedPostbyte ↔ pb ∈ undefinedPostbytes) ∧
  (∀ (s : State) (op pb : Byte), RunsInstruction s → op ∈ [0x30, 0x31, 0x32, 0x33] → Holds s s.pc [op, pb] →
    pb ∈ undefinedPostbytes → step s = .refused .undefinedPostbyte)

/-- TFR from a 16-bit to an 8-bit register and EXG of registers of unequal size are refused, and a TFR or EXG postbyte
with an undefined register code too (R311, R312, R313). -/
def Obligations.IllSizedTransfersRefused : Prop :=
  (∀ (r1 : Reg16) (r2 : Reg8) (s : State), exec (.tfr (.wide r1) (.byte r2)) s = .refused .tfrSize) ∧
  (∀ (r1 : Reg16) (r2 : Reg8) (s : State), exec (.exg (.wide r1) (.byte r2)) s = .refused .exgSize) ∧
  (∀ (r1 : Reg8) (r2 : Reg16) (s : State), exec (.exg (.byte r1) (.wide r2)) s = .refused .exgSize) ∧
  (∀ (s : State) (op pb : Byte), RunsInstruction s → op = 0x1E ∨ op = 0x1F → Holds s s.pc [op, pb] →
    (pb.toNat / 16 ∈ [6, 7, 12, 13, 14, 15] ∨ pb.toNat % 16 ∈ [6, 7, 12, 13, 14, 15]) →
    step s = .refused .undefinedRegisterCode)

/-! ## Memory -/

/-- A word stored in RAM is read back, high byte at the lower address, no alignment, addresses modulo 65536; every other byte is
as before (R62, R63, R64, R65). -/
def Obligations.WordStoreReadsBack : Prop :=
  ∀ (acc : Config.Access) (addr v : Word) (s : State), s.Writes addr → s.Writes (addr + 1) →
    ∃ t, write16 acc addr v s = .next t ∧ read16 acc addr t = .next (v, t) ∧
      t.Reads addr (hi8 v) ∧ t.Reads (addr + 1) (lo8 v) ∧ v.toNat = 256 * (hi8 v).toNat + (lo8 v).toNat ∧
      ChangesOnly [] [] [addr, addr + 1] s t

/-- A read of a byte that holds no value, a read or write where nothing stands, and a write to ROM fault. A device whose
reads have side effects takes plain loads and stores only and refuses the rest, any other device takes every access: a read gives
a free value, a write leaves memory as it is, and the device has been reached. Everything else succeeds (R68, R70; what
a device gives and that its accesses are kept is log 34's, the refusal log 6's). -/
def Obligations.AccessesThatStop : Prop :=
  ∀ (acc : Config.Access) (addr : Word) (v : Byte) (s : State),
    (s.kind addr = .unmapped →
      read8 acc addr s = .fault (.unmapped addr) ∧ write8 acc addr v s = .fault (.unmapped addr)) ∧
    (s.kind addr = .rom → write8 acc addr v s = .fault (.romWrite addr)) ∧
    (s.kind addr = .ram ∨ s.kind addr = .rom → s.byteAt addr = none → read8 acc addr s = .fault (.unwritten addr)) ∧
    (s.Reads addr v → read8 acc addr s = .next (v, s)) ∧
    (s.kind addr = .ram →
      ∃ t, write8 acc addr v s = .next t ∧ t.byteAt addr = some v ∧ ChangesOnly [] [] [addr] s t ∧
        t.deviceLog = s.deviceLog) ∧
    ∀ d : Config.Device,
      (Serves s acc addr d →
        (∃ b, read8 acc addr s = .next (b, Reached s d addr none)) ∧
          write8 acc addr v s = .next (Reached s d addr (some v))) ∧
      (s.kind addr = .device d → acc = .other → d.sensitive = true →
        read8 acc addr s = .refused (.device addr) ∧ write8 acc addr v s = .refused (.device addr))

/-- Where the frame can be stored in RAM, a push completes, and pulling with the same postbyte on the same stack gives
back every register; of memory only the bytes of the frame, below the stack pointer, have changed (R77, R318). -/
def Obligations.PullUndoesPush : Prop :=
  ∀ (r : StackReg) (mask : Byte) (s : State),
    let n := (stackBytes r mask s).length
    let sp := s.sp r - BitVec.ofNat 16 n
    Takes s sp n →
    ∃ t, pushRegs r mask s = .next t ∧ pullRegs r mask t = .next { s with mem := t.mem } ∧
      ∀ a, a ∉ addresses sp n → t.byteAt a = s.byteAt a

/-! ## Reset -/

/-- The values the spec gives at reset: F and I set, DP zero, NMI disarmed and not pending, running (R41, R451),
and the policies at the defaults of R6. The other values are the model's choice (log 3, log 4): PC, A, B, X, Y, U, S and the other flags zero. -/
def Obligations.ResetStateValues : Prop :=
  State.reset.flag .f = true ∧ State.reset.flag .i = true ∧ State.reset.dp = 0 ∧ State.reset.nmiArmed = false ∧
  State.reset.nmiPending = false ∧ State.reset.runState = .running ∧ State.reset.mem = [] ∧
  State.reset.policies = ⟨.refuse, .safe, ⟨true, true, true, true, true⟩⟩ ∧
  (∀ r ∈ [RegName.a, .b, .x, .y, .u, .s, .pc], State.reset.reg r = 0) ∧
  (∀ g ∈ [Flag.e, .h, .n, .z, .v, .c], State.reset.flag g = false)

/-- With the reset input active a step, whatever the machine was doing, sets F and I, clears DP, disarms NMI, drops a pending
one, runs, and loads PC from FFFEH; nothing is stacked (R450). That nothing else changes, A, B, X, Y, U, S and the
other flags among it, is the model's choice under R451 (log 30), and that an NMI edge of the same sample is dropped its
reading of R407 (log 21). -/
def Obligations.ResetInputRunsResetSequence : Prop :=
  ∀ (s : State) (hi lo : Byte), s.sample.resetLevel = true → s.Reads16 0xFFFE hi lo →
    ∃ u, step s = .next u ∧ u.flag .f = true ∧ u.flag .i = true ∧ u.dp = 0 ∧
      u.pc.toNat = 256 * hi.toNat + lo.toNat ∧
      ChangesOnly [.dp, .pc] [.f, .i] []
        { s with nmiArmed := false, nmiPending := false, runState := .running, inputs := s.inputs.tail } u ∧
      u.deviceLog = s.deviceLog

/-- The state after reset meets the invariant. -/
def Obligations.ResetMeetsInvariant : Prop := State.reset.Inv

/-! ## Steps -/

/-- When no interrupt or reset is taken and the bytes at PC are a well-formed instruction, the step is that instruction's
meaning, with this boundary's sample consumed and PC past the bytes (R25, R78, R407 step 5). -/
def Obligations.StepRunsDecodedInstruction : Prop :=
  ∀ (s : State) (bs : List Byte) (i : Instr), WellFormed i → decode bs = .ok i [] → RunsInstruction s →
    Holds s s.pc bs →
    step s = exec i { s with inputs := s.inputs.tail, pc := s.pc + BitVec.ofNat 16 bs.length }

/-- A hardware interrupt accepted while running or in SYNC is a step of its own: NMI, IRQ with the entire frame and E set,
FIRQ with PC and CC and E clear; masks as R411 has them, PC from the vector (R407, R409, R410, R411, R413). -/
def Obligations.HardwareInterruptsEnterHandlers : Prop :=
  ∀ (ev : Event) (s : State), s.sample.resetLevel = false → s.runState ≠ .cwaiWait → Accepts s ev →
    Enters (entryRow ev) s
      { s with inputs := s.inputs.tail, nmiPending := false, runState := .running } (step s)

/-- In CWAI's wait an accepted interrupt stacks nothing: masks, PC from the vector, running, E as it was; with none
accepted the step changes nothing but the sample taken (R394, R407, R419). -/
def Obligations.CwaiWaitEndsWithoutStacking : Prop :=
  (∀ (ev : Event) (s : State) (hi lo : Byte), s.sample.resetLevel = false → s.runState = .cwaiWait →
    Accepts s ev → s.Reads16 (entryRow ev).vector hi lo →
    ∃ u, step s = .next u ∧ u.pc.toNat = 256 * hi.toNat + lo.toNat ∧
      (∀ g ∈ (entryRow ev).sets, u.flag g = true) ∧
      ChangesOnly [.pc] (entryRow ev).sets []
        { s with inputs := s.inputs.tail, nmiPending := false, runState := .running } u ∧
      u.deviceLog = s.deviceLog) ∧
  (∀ s : State, s.sample.resetLevel = false → s.runState = .cwaiWait → (∀ ev, ¬Accepts s ev) →
    step s = .next { s with inputs := s.inputs.tail })

/-- In SYNC's wait a step with no active input changes nothing but the sample taken; with any active input, masked or
not, it does what the running machine does (R395, R407, R420). -/
def Obligations.SyncWaitEndsOnAnyInput : Prop :=
  (∀ s : State, s.sample.resetLevel = false → s.runState = .syncWait → ¬NmiRequested s →
    s.sample.firqLevel = false → s.sample.irqLevel = false → step s = .next { s with inputs := s.inputs.tail }) ∧
  (∀ s : State, s.runState = .syncWait →
    (NmiRequested s ∨ s.sample.firqLevel = true ∨ s.sample.irqLevel = true) →
    step s = step { s with runState := .running })

/-- An NMI edge while NMI is disarmed is lost: the step is the same as without the edge (R404, R455). -/
def Obligations.DisarmedNmiIsLost : Prop :=
  ∀ (s : State) (i : Inputs) (rest : List Inputs), s.nmiArmed = false → s.inputs = i :: rest →
    step s = step { s with inputs := { i with nmiEdge := false } :: rest }

/-! ## Invariants and whole-machine rules -/

/-- Every step keeps the invariant: memory in canonical form, and an NMI latched only while armed (R38, R39, R404). -/
def Obligations.StepKeepsInvariant : Prop :=
  ∀ s t : State, s.Inv → step s = .next t → t.Inv

/-- No step changes the memory map, the policies or a byte outside RAM (R6, R70). -/
def Obligations.StepKeepsMapAndNonRam : Prop :=
  ∀ s t : State, step s = .next t →
    t.memMap = s.memMap ∧ t.policies = s.policies ∧ ∀ addr, s.kind addr ≠ .ram → t.byteAt addr = s.byteAt addr

/-- With RAM that holds a byte everywhere a step answers a next state, where the RAM is full again, or stops for an undefined
encoding or a size mismatch: by a refusal, or for an opcode by the fault that `UNDEF_OPCODE_POLICY` asks for. There are no fault
exceptions (R6, R401, R70). -/
def Obligations.FullRamNeverFaults : Prop :=
  ∀ s : State, s.FullRam →
    (∃ t, step s = .next t ∧ t.FullRam) ∨
    (s.policies.undefOpcode = .fault ∧ step s = .fault .undefinedOpcode) ∨
    ∃ r ∈ [Refusal.undefinedOpcode, .undefinedPostbyte, .undefinedRegisterCode, .tfrSize, .exgSize],
      step s = .refused r

/-- Every well-formed instruction completes on RAM that holds a byte everywhere, from any registers, and leaves it so
(R401). -/
def Obligations.WellFormedInstructionsComplete : Prop :=
  ∀ (i : Instr) (s : State), WellFormed i → s.FullRam → ∃ t, exec i s = .next t ∧ t.FullRam

/-- Only the instructions of `NMI_ARM_SET`, whichever it is, arm NMI, each of them does, and none disarms it (R6, R38, R404). -/
def Obligations.OnlyArmSetArmsNmi : Prop :=
  ∀ (i : Instr) (s t : State), exec i s = .next t →
    (t.nmiArmed = true ↔ s.nmiArmed = true ∨ armsNmi s.policies.nmiArm i) ∧ t.nmiPending = s.nmiPending

/-- Only CWAI and SYNC leave the running state (R40, R394, R395). -/
def Obligations.OnlyWaitsStopRunning : Prop :=
  ∀ (i : Instr) (s t : State), exec i s = .next t →
    t.runState = match i with
      | .cwai _ => .cwaiWait
      | .sync => .syncWait
      | _ => s.runState

/-- Only an instruction that writes CC whole, RTI or a software interrupt changes E, F or I (R28, R29, R31). -/
def Obligations.OnlyCcWritersChangeMasks : Prop :=
  ∀ (i : Instr) (s t : State), exec i s = .next t → ¬mayChangeMasks i →
    ∀ g ∈ [Flag.e, .f, .i], t.flag g = s.flag g

/-- Only TFR, EXG, PULS, PULU and RTI write DP (R26). -/
def Obligations.OnlyListedWriteDp : Prop :=
  ∀ (i : Instr) (s t : State), exec i s = .next t → ¬mayChangeDp i → t.dp = s.dp

/-- An instruction with no write in R66's table leaves every byte of memory; no instruction changes what stands where, the
policies or the inputs to come (R6, R66, R71). -/
def Obligations.NonStoringKeepMemory : Prop :=
  ∀ (i : Instr) (s t : State), exec i s = .next t →
    (mayStore i = false → t.mem = s.mem) ∧ t.memMap = s.memMap ∧ t.policies = s.policies ∧ t.inputs = s.inputs

/-! ## Addressing modes -/

/-- Direct, extended and immediate operands: DP and the byte concatenated, the address itself, the value itself; nothing
changes (R142, R143, R144). -/
def Obligations.DirectExtendedImmediateOperands : Prop :=
  (∀ (n : Byte) (s : State), ∃ ea, effectiveAddress (.direct n) s = .next (ea, s) ∧
    ea.toNat = 256 * s.dp.toNat + n.toNat) ∧
  (∀ (nn : Word) (s : State), effectiveAddress (.extended nn) s = .next (nn, s)) ∧
  (∀ (acc : Config.Access) (n : Byte) (s : State), source8 acc (.imm n) s = .next (n, s)) ∧
  (∀ (acc : Config.Access) (nn : Word) (s : State), source16 acc (.imm nn) s = .next (nn, s))

/-- Indexed with an offset: constant of 5, 8 or 16 bits, accumulator A or B (signed) or D, or none, and PC-relative with 8 or
16 bits from the address of the next instruction; the sum modulo 65536, nothing changes (R147 to R152, R157, R158). -/
def Obligations.OffsetsGiveIndexedAddresses : Prop :=
  ∀ (r : IndexReg) (s : State),
    let index := ((s.getIndex r).toNat : Int)
    let gives (p : Indexed) (base off : Int) : Prop :=
      ∃ ea, indexedAddress p s = .next (ea, s) ∧ (ea.toNat : Int) = (base + off) % 65536
    (∀ n : BitVec 5, gives (.off5 r n) index n.toInt) ∧
    gives (.form r .zero false) index 0 ∧
    (∀ n : Byte, gives (.form r (.off8 n) false) index n.toInt) ∧
    (∀ nn : Word, gives (.form r (.off16 nn) false) index nn.toNat) ∧
    gives (.form r .accA false) index s.a.toInt ∧
    gives (.form r .accB false) index s.b.toInt ∧
    gives (.form r .accD false) index (256 * (s.a.toNat : Int) + s.b.toNat) ∧
    (∀ n : Byte, gives (.pcr8 n false) s.pc.toNat n.toInt) ∧
    (∀ nn : Word, gives (.pcr16 nn false) s.pc.toNat nn.toInt)

/-- Automatic increment gives the old register and adds 1 or 2 after; automatic decrement subtracts 1 or 2 and gives the new
register; modulo 65536, and nothing else changes, NMI arming included (R153 to R156, R404). -/
def Obligations.AutoIncrementAndDecrement : Prop :=
  ∀ (r : IndexReg) (s : State),
    let old := ((s.getIndex r).toNat : Int)
    let gives (f : IndexForm) (ea new : Int) : Prop :=
      ∃ q t, indexedAddress (.form r f false) s = .next (q, t) ∧ (q.toNat : Int) = ea % 65536 ∧
        ((t.getIndex r).toNat : Int) = new % 65536 ∧ ChangesOnly [r.name] [] [] s t
    gives .postInc1 old (old + 1) ∧ gives .postInc2 old (old + 2) ∧
    gives .preDec1 (old - 1) (old - 1) ∧ gives .preDec2 (old - 2) (old - 2)

/-- An indirect form takes its address from the two bytes, high first, at the address the direct form gives, after its
automatic increment or decrement; extended indirect from the two bytes at its operand (R159, R160). That the pointer is
read as an access other than a plain one, of a load or a store too, so that a device whose reads have side effects refuses
it, is the model's choice (log 6). -/
def Obligations.IndirectFormsReadPointer : Prop :=
  let points (p : Indexed) (t : State) (ea1 : Word) (s : State) : Prop :=
    (∀ hi lo, t.Reads16 ea1 hi lo →
      ∃ ea, indexedAddress p s = .next (ea, t) ∧ ea.toNat = 256 * hi.toNat + lo.toNat) ∧
    indexedAddress p s = read16 .other ea1 t
  (∀ (r : IndexReg) (f : IndexForm) (s t : State) (ea1 : Word), f.allowsIndirect = true →
    indexedAddress (.form r f false) s = .next (ea1, t) → points (.form r f true) t ea1 s) ∧
  (∀ (n : Byte) (s t : State) (ea1 : Word), indexedAddress (.pcr8 n false) s = .next (ea1, t) →
    points (.pcr8 n true) t ea1 s) ∧
  (∀ (nn : Word) (s t : State) (ea1 : Word), indexedAddress (.pcr16 nn false) s = .next (ea1, t) →
    points (.pcr16 nn true) t ea1 s) ∧
  ∀ (nn : Word) (s : State), points (.extInd nn) s nn s

/-- A source operand in memory is the byte, or the two bytes high first, at the operand's address, wherever it lies; computing
the address and reading it change nothing but the index register of an automatic form, and a device the read reaches
(R63, R68, R140, R162). -/
def Obligations.SourceOperandsReadMemory : Prop :=
  (∀ (acc : Config.Access) (m : Mem) (s t : State) (ea : Word), effectiveAddress m s = .next (ea, t) →
    ChangesOnly (updatesMem m) [] [] s t ∧
    source8 acc (.mem m) s = read8 acc ea t ∧
    (∀ v, t.Reads ea v → source8 acc (.mem m) s = .next (v, t)) ∧
    (∀ hi lo, t.Reads16 ea hi lo → ∃ v, source16 acc (.mem m) s = .next (v, t) ∧
      v.toNat = 256 * hi.toNat + lo.toNat) ∧
    ∀ (u w : State) (hi lo : Byte), read8 acc ea t = .next (hi, u) → read8 acc (ea + 1) u = .next (lo, w) →
      ∃ v, source16 acc (.mem m) s = .next (v, w) ∧ v.toNat = 256 * hi.toNat + lo.toNat) ∧
  (∀ (acc : Config.Access) (src : Src8) (s t : State) (v : Byte), source8 acc src s = .next (v, t) →
    ChangesOnly (updates8 src) [] [] s t) ∧
  (∀ (acc : Config.Access) (src : Src16) (s t : State) (v : Word), source16 acc src s = .next (v, t) →
    ChangesOnly (updates16 src) [] [] s t)

/-! ## Arithmetic -/

/-- ADDA, ADDB, ADCA, ADCB: the sum modulo 256, H the carry out of bit 3, N, Z, V the signed overflow, C the carry (R200, R211, R212). -/
def Obligations.AddAndAdcGiveSum : Prop :=
  ∀ row ∈ byteAdditions, ∀ (src : Src8) (s t : State) (v : Byte), source8 .other src s = .next (v, t) →
    let c := if row.2.2 ∧ s.flag .c = true then 1 else 0
    let a := s.get8 row.2.1
    let r := (a.toNat + v.toNat + c) % 256
    Completes (row.1 src) s t false (updates8 src) row.2.1.names [.h, .n, .z, .v, .c] [] fun u =>
      (u.get8 row.2.1).toNat = r ∧ NZ8 r u ∧
      u.flag .h = decide (16 ≤ a.toNat % 16 + v.toNat % 16 + c) ∧
      u.flag .v = over8 (a.toInt + v.toInt + c) ∧
      u.flag .c = decide (256 ≤ a.toNat + v.toNat + c)

/-- SUBA, SUBB, SBCA, SBCB: the difference modulo 256, N, Z, V, C the borrow; H is open. CMPA, CMPB: the flags of that
difference, the accumulator unchanged (R201, R205, R216, R229, R231). -/
def Obligations.SubSbcCmpGiveDifference : Prop :=
  (∀ row ∈ byteSubtractions, ∀ (src : Src8) (s t : State) (v : Byte), source8 .other src s = .next (v, t) →
    let c := if row.2.2 ∧ s.flag .c = true then 1 else 0
    let a := s.get8 row.2.1
    let r := (256 + a.toNat - v.toNat + (256 - c)) % 256
    Completes (row.1 src) s t false (updates8 src) row.2.1.names [.h, .n, .z, .v, .c] [] fun u =>
      (u.get8 row.2.1).toNat = r ∧ NZ8 r u ∧
      u.flag .v = over8 (a.toInt - v.toInt - c) ∧ u.flag .c = decide (a.toNat < v.toNat + c)) ∧
  (∀ row ∈ [((.cmpa : Src8 → Instr), Reg8.a), (.cmpb, .b)], ∀ (src : Src8) (s t : State) (v : Byte),
    source8 .other src s = .next (v, t) →
    let a := s.get8 row.2
    Completes (row.1 src) s t false (updates8 src) [] [.h, .n, .z, .v, .c] [] fun u =>
      NZ8 ((256 + a.toNat - v.toNat) % 256) u ∧
      u.flag .v = over8 (a.toInt - v.toInt) ∧ u.flag .c = decide (a.toNat < v.toNat))

/-- ADDD and SUBD: D modulo 65536, N, Z, V, C; H is open after ADDD, or unchanged under `FLAG_POLICY = motorola`, and
unchanged after SUBD (R202, R203, R205, R213, R232). -/
def Obligations.AdddSubdGiveDouble : Prop :=
  ∀ (src : Src16) (s t : State) (v : Word), source16 .other src s = .next (v, t) →
    let d := 256 * s.a.toNat + s.b.toNat
    let sum := (d + v.toNat) % 65536
    let diff := (65536 + d - v.toNat) % 65536
    let signed := (s.a ++ s.b : Word).toInt
    Completes (.addd src) s t false (updates16 src) [.a, .b] [.h, .n, .z, .v, .c] [] (fun u =>
      256 * u.a.toNat + u.b.toNat = sum ∧ NZ16 sum u ∧ u.flag .v = over16 (signed + v.toInt) ∧
      u.flag .c = decide (65536 ≤ d + v.toNat) ∧ (s.policies.flags = .motorola → u.flag .h = s.flag .h)) ∧
    Completes (.subd src) s t false (updates16 src) [.a, .b] [.n, .z, .v, .c] [] (fun u =>
      256 * u.a.toNat + u.b.toNat = diff ∧ NZ16 diff u ∧ u.flag .v = over16 (signed - v.toInt) ∧
      u.flag .c = decide (d < v.toNat))

/-- CMPD, CMPS, CMPU, CMPX, CMPY: the flags of the 16-bit subtraction from the register as it is after the operand's address
was computed; no register changes, H neither (R162, R203, R217, R218, R219, R220). -/
def Obligations.WordComparesSetFlags : Prop :=
  ∀ row ∈ wordCompares, ∀ (src : Src16) (s t : State) (v : Word), source16 .other src s = .next (v, t) →
    let a := t.get16 row.2
    Completes (row.1 src) s t false (updates16 src) [] [.n, .z, .v, .c] [] fun u =>
      NZ16 ((65536 + a.toNat - v.toNat) % 65536) u ∧
      u.flag .v = over16 (a.toInt - v.toInt) ∧ u.flag .c = decide (a.toNat < v.toNat)

/-- MUL: D is the unsigned product, Z of the product, C its bit 7; N, V, H unchanged (R226). -/
def Obligations.MulGivesUnsignedProduct : Prop :=
  ∀ s : State, Completes .mul s s false [] [.a, .b] [.z, .c] [] fun u =>
    256 * u.a.toNat + u.b.toNat = s.a.toNat * s.b.toNat ∧
    u.flag .z = decide (s.a.toNat * s.b.toNat = 0) ∧ u.flag .c = decide (s.a.toNat * s.b.toNat / 128 % 2 = 1)

/-- SEX: D is B as a signed number, N and Z of it, B kept. ABX: X plus unsigned B modulo 65536, no flag (R210, R230). -/
def Obligations.SexAndAbxExtendB : Prop :=
  ∀ s : State,
    Completes .sex s s false [] [.a] [.n, .z] [] (fun u =>
      (u.a ++ u.b : Word).toInt = s.b.toInt ∧ u.flag .n = decide (s.b.toInt < 0) ∧
      u.flag .z = decide (s.b = 0)) ∧
    Completes .abx s s false [] [.x] [] [] (fun u => u.x.toNat = (s.x.toNat + s.b.toNat) % 65536)

/-- DAA: the corrections of R221 by H, C and the two digits; C never cleared; V open; H unchanged (R205, R221). -/
def Obligations.DaaAppliesCorrections : Prop :=
  ∀ s : State,
    let low := s.a.toNat % 16
    let high := s.a.toNat / 16
    let lo := if s.flag .h = true ∨ 9 < low then 6 else 0
    let hi := if s.flag .c = true ∨ 9 < high ∨ (8 < high ∧ 9 < low) then 96 else 0
    let sum := s.a.toNat + hi + lo
    Completes .daa s s false [] [.a] [.n, .z, .v, .c] [] fun u =>
      u.a.toNat = sum % 256 ∧ NZ8 (sum % 256) u ∧
      u.flag .c = (s.flag .c || decide (255 < sum))

/-- ADDA or ADCA of two packed-BCD bytes and then DAA is the decimal sum, C its hundreds (R211, R212, R221: DAA "corrects A
after an ADDA or ADCA of two packed-BCD bytes"). -/
def Obligations.AddThenDaaIsDecimalSum : Prop :=
  ∀ (s : State) (p q p' q' : Nat) (carry : Bool), p < 10 → q < 10 → p' < 10 → q' < 10 →
    s.a.toNat = 16 * p + q →
    let total := 10 * p + q + (10 * p' + q') + if carry = true ∧ s.flag .c = true then 1 else 0
    let operand : Src8 := .imm (BitVec.ofNat 8 (16 * p' + q'))
    ∃ t u, exec (if carry then .adca operand else .adda operand) s = .next t ∧ exec .daa t = .next u ∧
      u.a.toNat = 16 * (total / 10 % 10) + total % 10 ∧ u.flag .c = decide (100 ≤ total) ∧ u.b = s.b

/-! ## Logic, shifts, one-byte operations -/

/-- ANDA, ANDB, ORA, ORB, EORA, EORB: bit by bit; N and Z of the result, V cleared, C and H unchanged. BITA, BITB: N and Z of the
AND, V cleared, nothing else (R259, R260, R266, R269, R274). -/
def Obligations.LogicActsBitByBit : Prop :=
  (∀ row ∈ byteLogic, ∀ (src : Src8) (s t : State) (v : Byte), source8 .other src s = .next (v, t) →
    Completes (row.1 src) s t false (updates8 src) row.2.1.names [.n, .z, .v] [] fun u =>
      (∀ k < 8, (u.get8 row.2.1).getLsbD k = row.2.2 ((s.get8 row.2.1).getLsbD k) (v.getLsbD k)) ∧
      NZ8 (u.get8 row.2.1).toNat u ∧ u.flag .v = false) ∧
  (∀ row ∈ [((.bita : Src8 → Instr), Reg8.a), (.bitb, .b)], ∀ (src : Src8) (s t : State) (v : Byte),
    source8 .other src s = .next (v, t) →
    Completes (row.1 src) s t false (updates8 src) [] [.n, .z, .v] [] fun u =>
      u.flag .n = ((s.get8 row.2).getLsbD 7 && v.getLsbD 7) ∧
      (u.flag .z = true ↔ ∀ k < 8, ((s.get8 row.2).getLsbD k && v.getLsbD k) = false) ∧ u.flag .v = false)

/-- ANDCC and ORCC work on each of the eight bits of CC and change nothing else (R261, R275). -/
def Obligations.AndccOrccActOnEveryFlag : Prop :=
  ∀ (n : Byte) (s : State),
    Completes (.andcc n) s s false [] [] allFlags [] (fun u =>
      ∀ g : Flag, u.flag g = (s.flag g && n.getLsbD (bitOf g))) ∧
    Completes (.orcc n) s s false [] [] allFlags [] (fun u =>
      ∀ g : Flag, u.flag g = (s.flag g || n.getLsbD (bitOf g)))

/-- The one-byte operations on A and B: the new byte and the flags of each row; flags open under R205 may take any value,
and V of ASR, LSR, ROR under `FLAG_POLICY = motorola` is unchanged (R205, R223, R225,
R228, R263, R265, R268, R271, R273, R277, R279). -/
def Obligations.AccumulatorShiftsAndUnaries : Prop :=
  ∀ row ∈ unaryRows, ∀ s : State,
    let ea := row.effect s.a.toNat (s.flag .c)
    let eb := row.effect s.b.toNat (s.flag .c)
    Completes row.accA s s false [] [.a] ea.flags [] (fun u =>
      u.a.toNat = ea.result ∧ ea.holds s u) ∧
    Completes row.accB s s false [] [.b] eb.flags [] (fun u =>
      u.b.toNat = eb.result ∧ eb.holds s u)

/-- The one-byte operations on memory: the byte at the operand's address is read and written once, with the same results; a
device whose reads have no side effects too (R66, R68, R222, R224, R227, R262, R264, R267, R270, R272, R276, R278). -/
def Obligations.MemoryShiftsAndUnaries : Prop :=
  ∀ row ∈ unaryRows, ∀ (m : Mem) (s t : State) (ea : Word), effectiveAddress m s = .next (ea, t) →
    (∀ v : Byte, t.Reads ea v → t.Writes ea →
      let e := row.effect v.toNat (s.flag .c)
      Completes (row.mem m) s t false (updatesMem m) [] e.flags [ea] fun u =>
        u.byteAt ea = some (BitVec.ofNat 8 e.result) ∧ e.holds s u) ∧
    ∀ (d : Config.Device) (v : Byte), Serves t .other ea d → read8 .other ea t = .next (v, Reached t d ea none) →
      let e := row.effect v.toNat (s.flag .c)
      let log := ⟨d, ea, some (BitVec.ofNat 8 e.result)⟩ :: ⟨d, ea, none⟩ :: t.deviceLog
      CompletesWith log (row.mem m) s t false (updatesMem m) [] e.flags [] fun u => e.holds s u

/-- CLR, CLRA, CLRB: zero; N, V, C cleared, Z set (R214, R215). That the memory form reads nothing before its write, so that
the byte need hold no value and a device is written alone, is the model's choice (log 19, of D16): the chip reads first and
ignores the value (R66, R68, R214). -/
def Obligations.ClrWritesZero : Prop :=
  ∀ s : State,
    let cleared (u : State) : Prop :=
      u.flag .n = false ∧ u.flag .z = true ∧ u.flag .v = false ∧ u.flag .c = false
    Completes .clra s s false [] [.a] [.n, .z, .v, .c] [] (fun u => u.a = 0 ∧ cleared u) ∧
    Completes .clrb s s false [] [.b] [.n, .z, .v, .c] [] (fun u => u.b = 0 ∧ cleared u) ∧
    ∀ (m : Mem) (t : State) (ea : Word), effectiveAddress m s = .next (ea, t) →
      (t.Writes ea →
        Completes (.clr m) s t false (updatesMem m) [] [.n, .z, .v, .c] [ea] fun u =>
          u.byteAt ea = some 0 ∧ cleared u) ∧
      ∀ d, Serves t .other ea d →
        CompletesWith (⟨d, ea, some 0⟩ :: t.deviceLog) (.clr m) s t false (updatesMem m) [] [.n, .z, .v, .c] [] cleared

/-- TST, TSTA, TSTB: N and Z of the value, V cleared, nothing written; the location is read once (R68, R233, R234). -/
def Obligations.TstSetsNAndZ : Prop :=
  ∀ s : State,
    Completes .tsta s s false [] [] [.n, .z, .v] [] (fun u => NZ8 s.a.toNat u ∧ u.flag .v = false) ∧
    Completes .tstb s s false [] [] [.n, .z, .v] [] (fun u => NZ8 s.b.toNat u ∧ u.flag .v = false) ∧
    ∀ (m : Mem) (t w : State) (ea : Word) (v : Byte), effectiveAddress m s = .next (ea, t) →
      read8 .other ea t = .next (v, w) →
      Completes (.tst m) s w false (updatesMem m) [] [.n, .z, .v] [] fun u =>
        NZ8 v.toNat u ∧ u.flag .v = false

/-! ## Loads, stores, transfers -/

/-- LDA, LDB, LDD, LDS, LDU, LDX, LDY: the operand, N and Z of it, V cleared; LDS arms NMI if it is in
`NMI_ARM_SET` (R300, R301, R302, R303, R304, R404). -/
def Obligations.LoadsGiveOperand : Prop :=
  (∀ row ∈ [((.lda : Src8 → Instr), Reg8.a), (.ldb, .b)], ∀ (src : Src8) (s t : State) (v : Byte),
    source8 .plain src s = .next (v, t) →
    Completes (row.1 src) s t false (updates8 src) row.2.names [.n, .z, .v] [] fun u =>
      u.get8 row.2 = v ∧ NZ8 v.toNat u ∧ u.flag .v = false) ∧
  (∀ row ∈ wordLoads, ∀ (src : Src16) (s t : State) (v : Word), source16 .plain src s = .next (v, t) →
    Completes (row.1 src) s t (row.2.2 && s.policies.nmiArm.lds) (updates16 src) row.2.1.names [.n, .z, .v] [] fun u =>
      (u.get16 row.2.1).toNat = v.toNat ∧ NZ16 v.toNat u ∧ u.flag .v = false)

/-- STA, STB, STD, STS, STU, STX, STY: memory, or a device of any kind, receives the register as it is after the operand's address
was computed, high byte first; N and Z of it, V cleared (R68, R162, R306, R307, R308, R309, R310). -/
def Obligations.StoresWriteRegister : Prop :=
  (∀ row ∈ [((.sta : Mem → Instr), Reg8.a), (.stb, .b)], ∀ (m : Mem) (s t : State) (ea : Word),
    effectiveAddress m s = .next (ea, t) →
    let v := s.get8 row.2
    (t.Writes ea →
      Completes (row.1 m) s t false (updatesMem m) [] [.n, .z, .v] [ea] fun u =>
        u.byteAt ea = some v ∧ NZ8 v.toNat u ∧ u.flag .v = false) ∧
    ∀ d, t.kind ea = .device d →
      CompletesWith (⟨d, ea, some v⟩ :: t.deviceLog) (row.1 m) s t false (updatesMem m) [] [.n, .z, .v] [] fun u =>
        NZ8 v.toNat u ∧ u.flag .v = false) ∧
  (∀ row ∈ wordStores, ∀ (m : Mem) (s t : State) (ea : Word), effectiveAddress m s = .next (ea, t) →
    let v := (t.get16 row.2).toNat
    (t.Writes ea → t.Writes (ea + 1) →
      Completes (row.1 m) s t false (updatesMem m) [] [.n, .z, .v] [ea, ea + 1] fun u =>
        u.byteAt ea = some (BitVec.ofNat 8 (v / 256)) ∧ u.byteAt (ea + 1) = some (BitVec.ofNat 8 (v % 256)) ∧
        NZ16 v u ∧ u.flag .v = false) ∧
    ∀ d d', t.kind ea = .device d → t.kind (ea + 1) = .device d' →
      let log := ⟨d', ea + 1, some (BitVec.ofNat 8 (v % 256))⟩ :: ⟨d, ea, some (BitVec.ofNat 8 (v / 256))⟩ :: t.deviceLog
      CompletesWith log (row.1 m) s t false (updatesMem m) [] [.n, .z, .v] [] fun u => NZ16 v u ∧ u.flag .v = false)

/-- LEAX and LEAY load the effective address and write Z alone; LEAS and LEAU load it and write no flag; LEAS arms NMI if it is in `NMI_ARM_SET`; memory is read for
an indirect form only (R162, R305, R404). -/
def Obligations.LeaLoadsEffectiveAddress : Prop :=
  ∀ (p : Indexed) (s t : State) (ea : Word), indexedAddress p s = .next (ea, t) →
    Completes (.leax p) s t false (updatesIndexed p) [.x] [.z] [] (fun u =>
      u.x = ea ∧ u.flag .z = decide (ea.toNat = 0)) ∧
    Completes (.leay p) s t false (updatesIndexed p) [.y] [.z] [] (fun u =>
      u.y = ea ∧ u.flag .z = decide (ea.toNat = 0)) ∧
    Completes (.leas p) s t s.policies.nmiArm.leas (updatesIndexed p) [.s] [] [] (fun u => u.s = ea) ∧
    Completes (.leau p) s t false (updatesIndexed p) [.u] [] [] (fun u => u.u = ea)

/-- TFR between registers of one width copies; from 8 to 16 bits it completes and only the destination changes, its value being
free; a destination S arms NMI if TFR is in `NMI_ARM_SET`; a destination CC takes all eight bits (R311, R404). -/
def Obligations.TfrCopiesRegister : Prop :=
  (∀ (r1 r2 : Reg16) (s : State),
    Completes (.tfr (.wide r1) (.wide r2)) s s (decide (r2 = .s) && s.policies.nmiArm.tfr) [] r2.names [] [] fun u =>
      u.get16 r2 = s.get16 r1) ∧
  (∀ (r1 r2 : Reg8) (s : State),
    Completes (.tfr (.byte r1) (.byte r2)) s s false [] r2.names (if r2 = .cc then allFlags else []) [] fun u =>
      u.get8 r2 = s.get8 r1) ∧
  (∀ (r1 : Reg8) (r2 : Reg16) (s : State),
    Completes (.tfr (.byte r1) (.wide r2)) s s (decide (r2 = .s) && s.policies.nmiArm.tfr) [] r2.names [] [] fun _ => True)

/-- EXG of registers of one width swaps them; S as either operand arms NMI if EXG is in `NMI_ARM_SET` (R312, R404). -/
def Obligations.ExgSwapsRegisters : Prop :=
  (∀ (r1 r2 : Reg16) (s : State),
    Completes (.exg (.wide r1) (.wide r2)) s s (decide (r1 = .s ∨ r2 = .s) && s.policies.nmiArm.exg) [] (r1.names ++ r2.names) [] [] fun u =>
      u.get16 r1 = s.get16 r2 ∧ u.get16 r2 = s.get16 r1) ∧
  (∀ (r1 r2 : Reg8) (s : State),
    Completes (.exg (.byte r1) (.byte r2)) s s false [] (r1.names ++ r2.names)
      (if r1 = .cc ∨ r2 = .cc then allFlags else []) [] fun u =>
      u.get8 r1 = s.get8 r2 ∧ u.get8 r2 = s.get8 r1)

/-! ## Stacks, calls, branches -/

/-- PSHS and PSHU lay the selected registers out from the new stack pointer upward in the order CC, A, B, DP, X, Y, other, PC;
nothing else changes (R77, R314, R315, R318). -/
def Obligations.PushLaysOutRegisters : Prop :=
  ∀ (r : StackReg) (mask : Byte) (s : State),
    let bs := stackBytes r mask s
    let sp := s.sp r - BitVec.ofNat 16 bs.length
    Takes s sp bs.length →
    ∃ u, exec (psh r mask) s = .next u ∧ u.sp r = sp ∧ Stored u sp bs ∧
      ChangesOnly [r.name] [] (addresses sp bs.length) s u ∧ u.deviceLog = s.deviceLog

/-- PULS and PULU load the selected registers from the stack pointer upward in the same order; PULU with bit 6 set arms NMI if it is
in `NMI_ARM_SET`; CC changes only with bit 0 set (R77, R316, R317, R318, R404). `v` is any state with the registers that lie there. -/
def Obligations.PullLoadsRegisters : Prop :=
  ∀ (r : StackReg) (mask : Byte) (s v : State),
    let bs := stackBytes r mask v
    Holds s (s.sp r) bs →
    ∃ u, exec (pul r mask) s = .next u ∧ u.sp r = s.sp r + BitVec.ofNat 16 bs.length ∧ Restored r mask v u ∧
      ChangesOnly (r.name :: selected r mask) (if mask.getLsbD 0 then allFlags else []) []
        (armedIf (decide (r = .u) && mask.getLsbD 6 && s.policies.nmiArm.pulu) s) u ∧ u.deviceLog = s.deviceLog

/-- Every branch, short and long, taken or not by its condition, changes PC alone; NOP changes nothing (R339, R340, R355, R356, R362,
R363, R378, R380). -/
def Obligations.BranchesFollowConditions : Prop :=
  (∀ s : State, exec .nop s = .next s) ∧
  ∀ row ∈ branchRows, ∀ s : State,
    let taken := row.taken (s.flag .n) (s.flag .z) (s.flag .v) (s.flag .c)
    (∀ off : Byte, BranchesBy (row.short off) off.toInt taken s) ∧
    (∀ off : Word, BranchesBy (row.long off) off.toInt taken s)

/-- BSR, LBSR and JSR push the address of the next instruction, low byte first, and load PC with the target; JSR's address is
computed before the push (R162, R357, R361, R379). -/
def Obligations.CallsPushReturnAddress : Prop :=
  let pushed (s u : State) : Prop :=
    u.s = s.s - 2 ∧ u.byteAt (s.s - 2) = some (BitVec.ofNat 8 (s.pc.toNat / 256)) ∧
      u.byteAt (s.s - 1) = some (BitVec.ofNat 8 (s.pc.toNat % 256))
  (∀ (off : Byte) (s : State), s.Writes (s.s - 1) → s.Writes (s.s - 2) →
    Completes (.bsr off) s s false [] [.s, .pc] [] [s.s - 2, s.s - 1] fun u =>
      pushed s u ∧ (u.pc.toNat : Int) = ((s.pc.toNat : Int) + off.toInt) % 65536) ∧
  (∀ (off : Word) (s : State), s.Writes (s.s - 1) → s.Writes (s.s - 2) →
    Completes (.lbsr off) s s false [] [.s, .pc] [] [s.s - 2, s.s - 1] fun u =>
      pushed s u ∧ (u.pc.toNat : Int) = ((s.pc.toNat : Int) + off.toInt) % 65536) ∧
  (∀ (m : Mem) (s t : State) (ea : Word), effectiveAddress m s = .next (ea, t) →
    t.Writes (t.s - 1) → t.Writes (t.s - 2) →
    Completes (.jsr m) s t false (updatesMem m) [.s, .pc] [] [t.s - 2, t.s - 1] fun u => pushed t u ∧ u.pc = ea)

/-- JMP loads PC with the effective address; RTS pulls PC, high byte at the lower address (R360, R381). -/
def Obligations.JmpAndRtsLoadPc : Prop :=
  (∀ (m : Mem) (s t : State) (ea : Word), effectiveAddress m s = .next (ea, t) →
    Completes (.jmp m) s t false (updatesMem m) [.pc] [] [] fun u => u.pc = ea) ∧
  (∀ (s : State) (hi lo : Byte), s.Reads16 s.s hi lo →
    Completes .rts s s false [] [.s, .pc] [] [] fun u =>
      u.pc.toNat = 256 * hi.toNat + lo.toNat ∧ u.s.toNat = (s.s.toNat + 2) % 65536)

/-! ## System -/

/-- SWI, SWI2 and SWI3 stack the entire frame with E set and the old masks, SWI alone sets F and I, PC from their vectors (R390,
R391, R392, R411). -/
def Obligations.SoftwareInterruptsEnterHandlers : Prop :=
  ∀ s : State,
    Enters (entryRow .swi) s s (exec .swi s) ∧ Enters (entryRow .swi2) s s (exec .swi2 s) ∧
    Enters (entryRow .swi3) s s (exec .swi3 s)

/-- RTI pulls CC; if the E pulled is 1 every other register of the frame follows, else PC alone (R393). `v` is any
state with the registers that lie there. -/
def Obligations.RtiPullsFrameByE : Prop :=
  ∀ s v : State,
    let mask : Byte := if v.flag .e then 0xFF else 0x81
    let bs := stackBytes .s mask v
    Holds s s.s bs →
    Completes .rti s s false [] (.s :: selected .s mask) allFlags [] fun u =>
      u.s = s.s + BitVec.ofNat 16 bs.length ∧ Restored .s mask v u

/-- RTI right after a software interrupt's entry, its frame in RAM, gives back every register, S included, and every flag but E, which the
frame holds as 1 (R390, R391, R392, R393, R416). -/
def Obligations.RtiUndoesSoftwareInterrupt : Prop :=
  ∀ i ∈ [Instr.swi, .swi2, .swi3], ∀ s t : State, exec i s = .next t → Takes s (s.s - 12) 12 →
    ∃ u, exec .rti t = .next u ∧ (∀ r, u.reg r = s.reg r) ∧ u.flag .e = true ∧
      ∀ g, g ≠ .e → u.flag g = s.flag g

/-- CWAI ANDs CC with its operand, sets E, stacks the entire frame with that CC and waits; SYNC waits and changes nothing
else (R394, R395). -/
def Obligations.CwaiAndSyncWait : Prop :=
  (∀ s : State, exec .sync s = .next { s with runState := .syncWait }) ∧
  ∀ (n : Byte) (s : State),
    let bs := stackBytes .s 0xFF { s with cc := (s.cc &&& n) ||| 0x80#8 }
    let sp := s.s - BitVec.ofNat 16 bs.length
    Takes s sp bs.length →
    ∃ u, exec (.cwai n) s = .next u ∧ u.s = sp ∧ Stored u sp bs ∧ u.flag .e = true ∧
      (∀ g : Flag, g ≠ .e → u.flag g = (s.flag g && n.getLsbD (bitOf g))) ∧
      ChangesOnly [.s] allFlags (addresses sp bs.length) { s with runState := .cwaiWait } u ∧
      u.deviceLog = s.deviceLog

/-- A second name has the words of its primary name, which begin with the opcode of its row and decode to the primary
name alone, one instruction with nothing left of it; there are no second names but those of the rows; and every second
name runs as its primary name (R120). -/
def Obligations.AliasesRunAsPrimary : Prop :=
  (∀ (m : Mem) (off : Byte) (long : Word), ∀ row ∈ aliasRows m off long,
    row.second.canonical = row.primary ∧ encode row.second = encode row.primary ∧
    row.opcode <+: encode row.primary ∧
    (WellFormed row.second → ∀ rest, decode (encode row.second ++ rest) = .ok row.primary rest)) ∧
  (∀ i : Instr, i.canonical ≠ i →
    ∃ (m : Mem) (off : Byte) (long : Word), ∃ row ∈ aliasRows m off long, row.second = i) ∧
  ∀ (i : Instr) (s : State), exec i s = exec i.canonical s
end

