-- ==== Sys2Proof/Laws/Bits.lean ====
section
/-! SUPPORT. The byte order and extension helpers, as numbers. -/

namespace Sys2Proof

theorem be16_toNat (hi lo : Byte) : (be16 hi lo).toNat = 256 * hi.toNat + lo.toNat := by
  have := lo.isLt
  rw [be16, BitVec.toNat_append, Nat.shiftLeft_eq, ← Nat.shiftLeft_eq, ← Nat.shiftLeft_add_eq_or_of_lt (by omega),
    Nat.shiftLeft_eq]
  omega

theorem hi8_toNat (w : Word) : (hi8 w).toNat = w.toNat / 256 := by
  have := w.isLt
  simp only [hi8, BitVec.extractLsb'_toNat, Nat.shiftRight_eq_div_pow]
  omega

theorem lo8_toNat (w : Word) : (lo8 w).toNat = w.toNat % 256 := by
  simp [lo8, BitVec.extractLsb'_toNat]

@[simp] theorem be16_hi8_lo8 (w : Word) : be16 (hi8 w) (lo8 w) = w := by
  apply BitVec.eq_of_toNat_eq
  rw [be16_toNat, hi8_toNat, lo8_toNat]
  omega

@[simp] theorem hi8_be16 (hi lo : Byte) : hi8 (be16 hi lo) = hi := by
  apply BitVec.eq_of_toNat_eq
  have := lo.isLt
  rw [hi8_toNat, be16_toNat]
  omega

@[simp] theorem lo8_be16 (hi lo : Byte) : lo8 (be16 hi lo) = lo := by
  apply BitVec.eq_of_toNat_eq
  have := lo.isLt
  rw [lo8_toNat, be16_toNat]
  omega

theorem zext8_toNat (b : Byte) : (zext8 b).toNat = b.toNat := by
  have := b.isLt
  simp only [zext8, BitVec.toNat_setWidth]
  omega

theorem sext8_toInt (b : Byte) : (sext8 b).toInt = b.toInt := by
  simp [sext8, BitVec.toInt_signExtend_of_le]

theorem sext5_toInt (n : BitVec 5) : (sext5 n).toInt = n.toInt := by
  simp [sext5, BitVec.toInt_signExtend_of_le]

/-- Adding a signed offset to an address, modulo 65536 (R65). -/
theorem add_toNat_signed (a off : Word) : ((a + off).toNat : Int) = ((a.toNat : Int) + off.toInt) % 65536 := by
  have ha := a.isLt
  have ho := off.isLt
  rw [BitVec.toNat_add, BitVec.toInt_eq_toNat_cond]
  split <;> omega

end Sys2Proof
end

