-- ==== Sys2Proof/Laws/State.lean ====
section
/-! SUPPORT. What each update of a state leaves in each field, so that no proof unfolds a record update. -/

namespace Sys2Proof.Machine

@[simp] theorem State.setFlag_a (s : State) (g : Flag) (q : Bool) : (s.setFlag g q).a = s.a := rfl
@[simp] theorem State.setFlag_b (s : State) (g : Flag) (q : Bool) : (s.setFlag g q).b = s.b := rfl
@[simp] theorem State.setFlag_x (s : State) (g : Flag) (q : Bool) : (s.setFlag g q).x = s.x := rfl
@[simp] theorem State.setFlag_y (s : State) (g : Flag) (q : Bool) : (s.setFlag g q).y = s.y := rfl
@[simp] theorem State.setFlag_u (s : State) (g : Flag) (q : Bool) : (s.setFlag g q).u = s.u := rfl
@[simp] theorem State.setFlag_s (s : State) (g : Flag) (q : Bool) : (s.setFlag g q).s = s.s := rfl
@[simp] theorem State.setFlag_pc (s : State) (g : Flag) (q : Bool) : (s.setFlag g q).pc = s.pc := rfl
@[simp] theorem State.setFlag_dp (s : State) (g : Flag) (q : Bool) : (s.setFlag g q).dp = s.dp := rfl
@[simp] theorem State.setFlag_cc (s : State) (g : Flag) (q : Bool) : (s.setFlag g q).cc = ccPut g q s.cc := rfl
@[simp] theorem State.setFlag_nmiArmed (s : State) (g : Flag) (q : Bool) : (s.setFlag g q).nmiArmed = s.nmiArmed := rfl
@[simp] theorem State.setFlag_nmiPending (s : State) (g : Flag) (q : Bool) : (s.setFlag g q).nmiPending = s.nmiPending := rfl
@[simp] theorem State.setFlag_runState (s : State) (g : Flag) (q : Bool) : (s.setFlag g q).runState = s.runState := rfl
@[simp] theorem State.setFlag_mem (s : State) (g : Flag) (q : Bool) : (s.setFlag g q).mem = s.mem := rfl
@[simp] theorem State.setFlag_memMap (s : State) (g : Flag) (q : Bool) : (s.setFlag g q).memMap = s.memMap := rfl
@[simp] theorem State.setFlag_inputs (s : State) (g : Flag) (q : Bool) : (s.setFlag g q).inputs = s.inputs := rfl
@[simp] theorem State.setFlag_policies (s : State) (g : Flag) (q : Bool) : (s.setFlag g q).policies = s.policies := rfl
@[simp] theorem State.setFlag_deviceLog (s : State) (g : Flag) (q : Bool) : (s.setFlag g q).deviceLog = s.deviceLog := rfl
@[simp] theorem State.setFlag_draws (s : State) (g : Flag) (q : Bool) : (s.setFlag g q).draws = s.draws := rfl

@[simp] theorem State.setNZ_a {w : Nat} (s : State) (r : BitVec w) : (s.setNZ r).a = s.a := rfl
@[simp] theorem State.setNZ_b {w : Nat} (s : State) (r : BitVec w) : (s.setNZ r).b = s.b := rfl
@[simp] theorem State.setNZ_x {w : Nat} (s : State) (r : BitVec w) : (s.setNZ r).x = s.x := rfl
@[simp] theorem State.setNZ_y {w : Nat} (s : State) (r : BitVec w) : (s.setNZ r).y = s.y := rfl
@[simp] theorem State.setNZ_u {w : Nat} (s : State) (r : BitVec w) : (s.setNZ r).u = s.u := rfl
@[simp] theorem State.setNZ_s {w : Nat} (s : State) (r : BitVec w) : (s.setNZ r).s = s.s := rfl
@[simp] theorem State.setNZ_pc {w : Nat} (s : State) (r : BitVec w) : (s.setNZ r).pc = s.pc := rfl
@[simp] theorem State.setNZ_dp {w : Nat} (s : State) (r : BitVec w) : (s.setNZ r).dp = s.dp := rfl
@[simp] theorem State.setNZ_nmiArmed {w : Nat} (s : State) (r : BitVec w) : (s.setNZ r).nmiArmed = s.nmiArmed := rfl
@[simp] theorem State.setNZ_nmiPending {w : Nat} (s : State) (r : BitVec w) : (s.setNZ r).nmiPending = s.nmiPending := rfl
@[simp] theorem State.setNZ_runState {w : Nat} (s : State) (r : BitVec w) : (s.setNZ r).runState = s.runState := rfl
@[simp] theorem State.setNZ_mem {w : Nat} (s : State) (r : BitVec w) : (s.setNZ r).mem = s.mem := rfl
@[simp] theorem State.setNZ_memMap {w : Nat} (s : State) (r : BitVec w) : (s.setNZ r).memMap = s.memMap := rfl
@[simp] theorem State.setNZ_inputs {w : Nat} (s : State) (r : BitVec w) : (s.setNZ r).inputs = s.inputs := rfl
@[simp] theorem State.setNZ_policies {w : Nat} (s : State) (r : BitVec w) : (s.setNZ r).policies = s.policies := rfl
@[simp] theorem State.setNZ_deviceLog {w : Nat} (s : State) (r : BitVec w) : (s.setNZ r).deviceLog = s.deviceLog := rfl
@[simp] theorem State.setNZ_draws {w : Nat} (s : State) (r : BitVec w) : (s.setNZ r).draws = s.draws := rfl

@[simp] theorem State.setNZ0_a {w : Nat} (s : State) (r : BitVec w) : (s.setNZ0 r).a = s.a := rfl
@[simp] theorem State.setNZ0_b {w : Nat} (s : State) (r : BitVec w) : (s.setNZ0 r).b = s.b := rfl
@[simp] theorem State.setNZ0_x {w : Nat} (s : State) (r : BitVec w) : (s.setNZ0 r).x = s.x := rfl
@[simp] theorem State.setNZ0_y {w : Nat} (s : State) (r : BitVec w) : (s.setNZ0 r).y = s.y := rfl
@[simp] theorem State.setNZ0_u {w : Nat} (s : State) (r : BitVec w) : (s.setNZ0 r).u = s.u := rfl
@[simp] theorem State.setNZ0_s {w : Nat} (s : State) (r : BitVec w) : (s.setNZ0 r).s = s.s := rfl
@[simp] theorem State.setNZ0_pc {w : Nat} (s : State) (r : BitVec w) : (s.setNZ0 r).pc = s.pc := rfl
@[simp] theorem State.setNZ0_dp {w : Nat} (s : State) (r : BitVec w) : (s.setNZ0 r).dp = s.dp := rfl
@[simp] theorem State.setNZ0_nmiArmed {w : Nat} (s : State) (r : BitVec w) : (s.setNZ0 r).nmiArmed = s.nmiArmed := rfl
@[simp] theorem State.setNZ0_nmiPending {w : Nat} (s : State) (r : BitVec w) : (s.setNZ0 r).nmiPending = s.nmiPending := rfl
@[simp] theorem State.setNZ0_runState {w : Nat} (s : State) (r : BitVec w) : (s.setNZ0 r).runState = s.runState := rfl
@[simp] theorem State.setNZ0_mem {w : Nat} (s : State) (r : BitVec w) : (s.setNZ0 r).mem = s.mem := rfl
@[simp] theorem State.setNZ0_memMap {w : Nat} (s : State) (r : BitVec w) : (s.setNZ0 r).memMap = s.memMap := rfl
@[simp] theorem State.setNZ0_inputs {w : Nat} (s : State) (r : BitVec w) : (s.setNZ0 r).inputs = s.inputs := rfl
@[simp] theorem State.setNZ0_policies {w : Nat} (s : State) (r : BitVec w) : (s.setNZ0 r).policies = s.policies := rfl
@[simp] theorem State.setNZ0_deviceLog {w : Nat} (s : State) (r : BitVec w) : (s.setNZ0 r).deviceLog = s.deviceLog := rfl
@[simp] theorem State.setNZ0_draws {w : Nat} (s : State) (r : BitVec w) : (s.setNZ0 r).draws = s.draws := rfl

@[simp] theorem State.setNZVC_a {w : Nat} (s : State) (r : Alu w) : (s.setNZVC r).a = s.a := rfl
@[simp] theorem State.setNZVC_b {w : Nat} (s : State) (r : Alu w) : (s.setNZVC r).b = s.b := rfl
@[simp] theorem State.setNZVC_x {w : Nat} (s : State) (r : Alu w) : (s.setNZVC r).x = s.x := rfl
@[simp] theorem State.setNZVC_y {w : Nat} (s : State) (r : Alu w) : (s.setNZVC r).y = s.y := rfl
@[simp] theorem State.setNZVC_u {w : Nat} (s : State) (r : Alu w) : (s.setNZVC r).u = s.u := rfl
@[simp] theorem State.setNZVC_s {w : Nat} (s : State) (r : Alu w) : (s.setNZVC r).s = s.s := rfl
@[simp] theorem State.setNZVC_pc {w : Nat} (s : State) (r : Alu w) : (s.setNZVC r).pc = s.pc := rfl
@[simp] theorem State.setNZVC_dp {w : Nat} (s : State) (r : Alu w) : (s.setNZVC r).dp = s.dp := rfl
@[simp] theorem State.setNZVC_nmiArmed {w : Nat} (s : State) (r : Alu w) : (s.setNZVC r).nmiArmed = s.nmiArmed := rfl
@[simp] theorem State.setNZVC_nmiPending {w : Nat} (s : State) (r : Alu w) : (s.setNZVC r).nmiPending = s.nmiPending := rfl
@[simp] theorem State.setNZVC_runState {w : Nat} (s : State) (r : Alu w) : (s.setNZVC r).runState = s.runState := rfl
@[simp] theorem State.setNZVC_mem {w : Nat} (s : State) (r : Alu w) : (s.setNZVC r).mem = s.mem := rfl
@[simp] theorem State.setNZVC_memMap {w : Nat} (s : State) (r : Alu w) : (s.setNZVC r).memMap = s.memMap := rfl
@[simp] theorem State.setNZVC_inputs {w : Nat} (s : State) (r : Alu w) : (s.setNZVC r).inputs = s.inputs := rfl
@[simp] theorem State.setNZVC_policies {w : Nat} (s : State) (r : Alu w) : (s.setNZVC r).policies = s.policies := rfl
@[simp] theorem State.setNZVC_deviceLog {w : Nat} (s : State) (r : Alu w) : (s.setNZVC r).deviceLog = s.deviceLog := rfl
@[simp] theorem State.setNZVC_draws {w : Nat} (s : State) (r : Alu w) : (s.setNZVC r).draws = s.draws := rfl

@[simp] theorem State.drawFlag_a (s : State) (g : Flag) (k : Config.OpenFlag) (cc : Byte) (v1 v2 : Word) : (s.drawFlag g k cc v1 v2).a = s.a := rfl
@[simp] theorem State.drawFlag_b (s : State) (g : Flag) (k : Config.OpenFlag) (cc : Byte) (v1 v2 : Word) : (s.drawFlag g k cc v1 v2).b = s.b := rfl
@[simp] theorem State.drawFlag_x (s : State) (g : Flag) (k : Config.OpenFlag) (cc : Byte) (v1 v2 : Word) : (s.drawFlag g k cc v1 v2).x = s.x := rfl
@[simp] theorem State.drawFlag_y (s : State) (g : Flag) (k : Config.OpenFlag) (cc : Byte) (v1 v2 : Word) : (s.drawFlag g k cc v1 v2).y = s.y := rfl
@[simp] theorem State.drawFlag_u (s : State) (g : Flag) (k : Config.OpenFlag) (cc : Byte) (v1 v2 : Word) : (s.drawFlag g k cc v1 v2).u = s.u := rfl
@[simp] theorem State.drawFlag_s (s : State) (g : Flag) (k : Config.OpenFlag) (cc : Byte) (v1 v2 : Word) : (s.drawFlag g k cc v1 v2).s = s.s := rfl
@[simp] theorem State.drawFlag_pc (s : State) (g : Flag) (k : Config.OpenFlag) (cc : Byte) (v1 v2 : Word) : (s.drawFlag g k cc v1 v2).pc = s.pc := rfl
@[simp] theorem State.drawFlag_dp (s : State) (g : Flag) (k : Config.OpenFlag) (cc : Byte) (v1 v2 : Word) : (s.drawFlag g k cc v1 v2).dp = s.dp := rfl
@[simp] theorem State.drawFlag_cc (s : State) (g : Flag) (k : Config.OpenFlag) (cc : Byte) (v1 v2 : Word) :
    (s.drawFlag g k cc v1 v2).cc =
      if s.policies.flags.draws k then ccPut g (Config.openFlag k s.draws cc v1 v2) s.cc else s.cc := rfl
@[simp] theorem State.drawFlag_nmiArmed (s : State) (g : Flag) (k : Config.OpenFlag) (cc : Byte) (v1 v2 : Word) : (s.drawFlag g k cc v1 v2).nmiArmed = s.nmiArmed := rfl
@[simp] theorem State.drawFlag_nmiPending (s : State) (g : Flag) (k : Config.OpenFlag) (cc : Byte) (v1 v2 : Word) : (s.drawFlag g k cc v1 v2).nmiPending = s.nmiPending := rfl
@[simp] theorem State.drawFlag_runState (s : State) (g : Flag) (k : Config.OpenFlag) (cc : Byte) (v1 v2 : Word) : (s.drawFlag g k cc v1 v2).runState = s.runState := rfl
@[simp] theorem State.drawFlag_mem (s : State) (g : Flag) (k : Config.OpenFlag) (cc : Byte) (v1 v2 : Word) : (s.drawFlag g k cc v1 v2).mem = s.mem := rfl
@[simp] theorem State.drawFlag_memMap (s : State) (g : Flag) (k : Config.OpenFlag) (cc : Byte) (v1 v2 : Word) : (s.drawFlag g k cc v1 v2).memMap = s.memMap := rfl
@[simp] theorem State.drawFlag_inputs (s : State) (g : Flag) (k : Config.OpenFlag) (cc : Byte) (v1 v2 : Word) : (s.drawFlag g k cc v1 v2).inputs = s.inputs := rfl
@[simp] theorem State.drawFlag_policies (s : State) (g : Flag) (k : Config.OpenFlag) (cc : Byte) (v1 v2 : Word) : (s.drawFlag g k cc v1 v2).policies = s.policies := rfl
@[simp] theorem State.drawFlag_deviceLog (s : State) (g : Flag) (k : Config.OpenFlag) (cc : Byte) (v1 v2 : Word) : (s.drawFlag g k cc v1 v2).deviceLog = s.deviceLog := rfl
@[simp] theorem State.drawFlag_draws (s : State) (g : Flag) (k : Config.OpenFlag) (cc : Byte) (v1 v2 : Word) :
    (s.drawFlag g k cc v1 v2).draws = if s.policies.flags.draws k then s.draws + 1 else s.draws := rfl

@[simp] theorem State.poke_a (s : State) (addr : Word) (v : Byte) : (s.poke addr v).a = s.a := rfl
@[simp] theorem State.poke_b (s : State) (addr : Word) (v : Byte) : (s.poke addr v).b = s.b := rfl
@[simp] theorem State.poke_x (s : State) (addr : Word) (v : Byte) : (s.poke addr v).x = s.x := rfl
@[simp] theorem State.poke_y (s : State) (addr : Word) (v : Byte) : (s.poke addr v).y = s.y := rfl
@[simp] theorem State.poke_u (s : State) (addr : Word) (v : Byte) : (s.poke addr v).u = s.u := rfl
@[simp] theorem State.poke_s (s : State) (addr : Word) (v : Byte) : (s.poke addr v).s = s.s := rfl
@[simp] theorem State.poke_pc (s : State) (addr : Word) (v : Byte) : (s.poke addr v).pc = s.pc := rfl
@[simp] theorem State.poke_dp (s : State) (addr : Word) (v : Byte) : (s.poke addr v).dp = s.dp := rfl
@[simp] theorem State.poke_cc (s : State) (addr : Word) (v : Byte) : (s.poke addr v).cc = s.cc := rfl
@[simp] theorem State.poke_nmiArmed (s : State) (addr : Word) (v : Byte) : (s.poke addr v).nmiArmed = s.nmiArmed := rfl
@[simp] theorem State.poke_nmiPending (s : State) (addr : Word) (v : Byte) : (s.poke addr v).nmiPending = s.nmiPending := rfl
@[simp] theorem State.poke_runState (s : State) (addr : Word) (v : Byte) : (s.poke addr v).runState = s.runState := rfl
@[simp] theorem State.poke_mem (s : State) (addr : Word) (v : Byte) : (s.poke addr v).mem = s.mem.write addr.toNat v := rfl
@[simp] theorem State.poke_memMap (s : State) (addr : Word) (v : Byte) : (s.poke addr v).memMap = s.memMap := rfl
@[simp] theorem State.poke_inputs (s : State) (addr : Word) (v : Byte) : (s.poke addr v).inputs = s.inputs := rfl
@[simp] theorem State.poke_policies (s : State) (addr : Word) (v : Byte) : (s.poke addr v).policies = s.policies := rfl
@[simp] theorem State.poke_deviceLog (s : State) (addr : Word) (v : Byte) : (s.poke addr v).deviceLog = s.deviceLog := rfl
@[simp] theorem State.poke_draws (s : State) (addr : Word) (v : Byte) : (s.poke addr v).draws = s.draws := rfl

@[simp] theorem State.armNmi_a (s : State) (writer : Config.NmiArmSet → Bool) : (s.armNmi writer).a = s.a := rfl
@[simp] theorem State.armNmi_b (s : State) (writer : Config.NmiArmSet → Bool) : (s.armNmi writer).b = s.b := rfl
@[simp] theorem State.armNmi_x (s : State) (writer : Config.NmiArmSet → Bool) : (s.armNmi writer).x = s.x := rfl
@[simp] theorem State.armNmi_y (s : State) (writer : Config.NmiArmSet → Bool) : (s.armNmi writer).y = s.y := rfl
@[simp] theorem State.armNmi_u (s : State) (writer : Config.NmiArmSet → Bool) : (s.armNmi writer).u = s.u := rfl
@[simp] theorem State.armNmi_s (s : State) (writer : Config.NmiArmSet → Bool) : (s.armNmi writer).s = s.s := rfl
@[simp] theorem State.armNmi_pc (s : State) (writer : Config.NmiArmSet → Bool) : (s.armNmi writer).pc = s.pc := rfl
@[simp] theorem State.armNmi_dp (s : State) (writer : Config.NmiArmSet → Bool) : (s.armNmi writer).dp = s.dp := rfl
@[simp] theorem State.armNmi_cc (s : State) (writer : Config.NmiArmSet → Bool) : (s.armNmi writer).cc = s.cc := rfl
@[simp] theorem State.armNmi_nmiArmed (s : State) (writer : Config.NmiArmSet → Bool) : (s.armNmi writer).nmiArmed = (s.nmiArmed || writer s.policies.nmiArm) := rfl
@[simp] theorem State.armNmi_nmiPending (s : State) (writer : Config.NmiArmSet → Bool) : (s.armNmi writer).nmiPending = s.nmiPending := rfl
@[simp] theorem State.armNmi_runState (s : State) (writer : Config.NmiArmSet → Bool) : (s.armNmi writer).runState = s.runState := rfl
@[simp] theorem State.armNmi_mem (s : State) (writer : Config.NmiArmSet → Bool) : (s.armNmi writer).mem = s.mem := rfl
@[simp] theorem State.armNmi_memMap (s : State) (writer : Config.NmiArmSet → Bool) : (s.armNmi writer).memMap = s.memMap := rfl
@[simp] theorem State.armNmi_inputs (s : State) (writer : Config.NmiArmSet → Bool) : (s.armNmi writer).inputs = s.inputs := rfl
@[simp] theorem State.armNmi_policies (s : State) (writer : Config.NmiArmSet → Bool) : (s.armNmi writer).policies = s.policies := rfl
@[simp] theorem State.armNmi_deviceLog (s : State) (writer : Config.NmiArmSet → Bool) : (s.armNmi writer).deviceLog = s.deviceLog := rfl
@[simp] theorem State.armNmi_draws (s : State) (writer : Config.NmiArmSet → Bool) : (s.armNmi writer).draws = s.draws := rfl

@[simp] theorem State.set16_dp (s : State) (r : Reg16) (v : Word) : (s.set16 r v).dp = s.dp := by cases r <;> rfl
@[simp] theorem State.set16_cc (s : State) (r : Reg16) (v : Word) : (s.set16 r v).cc = s.cc := by cases r <;> rfl
@[simp] theorem State.set16_nmiArmed (s : State) (r : Reg16) (v : Word) : (s.set16 r v).nmiArmed = s.nmiArmed := by cases r <;> rfl
@[simp] theorem State.set16_nmiPending (s : State) (r : Reg16) (v : Word) : (s.set16 r v).nmiPending = s.nmiPending := by cases r <;> rfl
@[simp] theorem State.set16_runState (s : State) (r : Reg16) (v : Word) : (s.set16 r v).runState = s.runState := by cases r <;> rfl
@[simp] theorem State.set16_mem (s : State) (r : Reg16) (v : Word) : (s.set16 r v).mem = s.mem := by cases r <;> rfl
@[simp] theorem State.set16_memMap (s : State) (r : Reg16) (v : Word) : (s.set16 r v).memMap = s.memMap := by cases r <;> rfl
@[simp] theorem State.set16_inputs (s : State) (r : Reg16) (v : Word) : (s.set16 r v).inputs = s.inputs := by cases r <;> rfl
@[simp] theorem State.set16_policies (s : State) (r : Reg16) (v : Word) : (s.set16 r v).policies = s.policies := by cases r <;> rfl
@[simp] theorem State.set16_deviceLog (s : State) (r : Reg16) (v : Word) : (s.set16 r v).deviceLog = s.deviceLog := by cases r <;> rfl
@[simp] theorem State.set16_draws (s : State) (r : Reg16) (v : Word) : (s.set16 r v).draws = s.draws := by cases r <;> rfl

@[simp] theorem State.set8_x (s : State) (r : Reg8) (v : Byte) : (s.set8 r v).x = s.x := by cases r <;> rfl
@[simp] theorem State.set8_y (s : State) (r : Reg8) (v : Byte) : (s.set8 r v).y = s.y := by cases r <;> rfl
@[simp] theorem State.set8_u (s : State) (r : Reg8) (v : Byte) : (s.set8 r v).u = s.u := by cases r <;> rfl
@[simp] theorem State.set8_s (s : State) (r : Reg8) (v : Byte) : (s.set8 r v).s = s.s := by cases r <;> rfl
@[simp] theorem State.set8_pc (s : State) (r : Reg8) (v : Byte) : (s.set8 r v).pc = s.pc := by cases r <;> rfl
@[simp] theorem State.set8_nmiArmed (s : State) (r : Reg8) (v : Byte) : (s.set8 r v).nmiArmed = s.nmiArmed := by cases r <;> rfl
@[simp] theorem State.set8_nmiPending (s : State) (r : Reg8) (v : Byte) : (s.set8 r v).nmiPending = s.nmiPending := by cases r <;> rfl
@[simp] theorem State.set8_runState (s : State) (r : Reg8) (v : Byte) : (s.set8 r v).runState = s.runState := by cases r <;> rfl
@[simp] theorem State.set8_mem (s : State) (r : Reg8) (v : Byte) : (s.set8 r v).mem = s.mem := by cases r <;> rfl
@[simp] theorem State.set8_memMap (s : State) (r : Reg8) (v : Byte) : (s.set8 r v).memMap = s.memMap := by cases r <;> rfl
@[simp] theorem State.set8_inputs (s : State) (r : Reg8) (v : Byte) : (s.set8 r v).inputs = s.inputs := by cases r <;> rfl
@[simp] theorem State.set8_policies (s : State) (r : Reg8) (v : Byte) : (s.set8 r v).policies = s.policies := by cases r <;> rfl
@[simp] theorem State.set8_deviceLog (s : State) (r : Reg8) (v : Byte) : (s.set8 r v).deviceLog = s.deviceLog := by cases r <;> rfl
@[simp] theorem State.set8_draws (s : State) (r : Reg8) (v : Byte) : (s.set8 r v).draws = s.draws := by cases r <;> rfl

@[simp] theorem State.setIndex_a (s : State) (r : IndexReg) (v : Word) : (s.setIndex r v).a = s.a := by cases r <;> rfl
@[simp] theorem State.setIndex_b (s : State) (r : IndexReg) (v : Word) : (s.setIndex r v).b = s.b := by cases r <;> rfl
@[simp] theorem State.setIndex_pc (s : State) (r : IndexReg) (v : Word) : (s.setIndex r v).pc = s.pc := by cases r <;> rfl
@[simp] theorem State.setIndex_dp (s : State) (r : IndexReg) (v : Word) : (s.setIndex r v).dp = s.dp := by cases r <;> rfl
@[simp] theorem State.setIndex_cc (s : State) (r : IndexReg) (v : Word) : (s.setIndex r v).cc = s.cc := by cases r <;> rfl
@[simp] theorem State.setIndex_nmiArmed (s : State) (r : IndexReg) (v : Word) : (s.setIndex r v).nmiArmed = s.nmiArmed := by cases r <;> rfl
@[simp] theorem State.setIndex_nmiPending (s : State) (r : IndexReg) (v : Word) : (s.setIndex r v).nmiPending = s.nmiPending := by cases r <;> rfl
@[simp] theorem State.setIndex_runState (s : State) (r : IndexReg) (v : Word) : (s.setIndex r v).runState = s.runState := by cases r <;> rfl
@[simp] theorem State.setIndex_mem (s : State) (r : IndexReg) (v : Word) : (s.setIndex r v).mem = s.mem := by cases r <;> rfl
@[simp] theorem State.setIndex_memMap (s : State) (r : IndexReg) (v : Word) : (s.setIndex r v).memMap = s.memMap := by cases r <;> rfl
@[simp] theorem State.setIndex_inputs (s : State) (r : IndexReg) (v : Word) : (s.setIndex r v).inputs = s.inputs := by cases r <;> rfl
@[simp] theorem State.setIndex_policies (s : State) (r : IndexReg) (v : Word) : (s.setIndex r v).policies = s.policies := by cases r <;> rfl
@[simp] theorem State.setIndex_deviceLog (s : State) (r : IndexReg) (v : Word) : (s.setIndex r v).deviceLog = s.deviceLog := by cases r <;> rfl
@[simp] theorem State.setIndex_draws (s : State) (r : IndexReg) (v : Word) : (s.setIndex r v).draws = s.draws := by cases r <;> rfl

@[simp] theorem State.setSp_a (s : State) (r : StackReg) (v : Word) : (s.setSp r v).a = s.a := by cases r <;> rfl
@[simp] theorem State.setSp_b (s : State) (r : StackReg) (v : Word) : (s.setSp r v).b = s.b := by cases r <;> rfl
@[simp] theorem State.setSp_x (s : State) (r : StackReg) (v : Word) : (s.setSp r v).x = s.x := by cases r <;> rfl
@[simp] theorem State.setSp_y (s : State) (r : StackReg) (v : Word) : (s.setSp r v).y = s.y := by cases r <;> rfl
@[simp] theorem State.setSp_pc (s : State) (r : StackReg) (v : Word) : (s.setSp r v).pc = s.pc := by cases r <;> rfl
@[simp] theorem State.setSp_dp (s : State) (r : StackReg) (v : Word) : (s.setSp r v).dp = s.dp := by cases r <;> rfl
@[simp] theorem State.setSp_cc (s : State) (r : StackReg) (v : Word) : (s.setSp r v).cc = s.cc := by cases r <;> rfl
@[simp] theorem State.setSp_nmiArmed (s : State) (r : StackReg) (v : Word) : (s.setSp r v).nmiArmed = s.nmiArmed := by cases r <;> rfl
@[simp] theorem State.setSp_nmiPending (s : State) (r : StackReg) (v : Word) : (s.setSp r v).nmiPending = s.nmiPending := by cases r <;> rfl
@[simp] theorem State.setSp_runState (s : State) (r : StackReg) (v : Word) : (s.setSp r v).runState = s.runState := by cases r <;> rfl
@[simp] theorem State.setSp_mem (s : State) (r : StackReg) (v : Word) : (s.setSp r v).mem = s.mem := by cases r <;> rfl
@[simp] theorem State.setSp_memMap (s : State) (r : StackReg) (v : Word) : (s.setSp r v).memMap = s.memMap := by cases r <;> rfl
@[simp] theorem State.setSp_inputs (s : State) (r : StackReg) (v : Word) : (s.setSp r v).inputs = s.inputs := by cases r <;> rfl
@[simp] theorem State.setSp_policies (s : State) (r : StackReg) (v : Word) : (s.setSp r v).policies = s.policies := by cases r <;> rfl
@[simp] theorem State.setSp_deviceLog (s : State) (r : StackReg) (v : Word) : (s.setSp r v).deviceLog = s.deviceLog := by cases r <;> rfl
@[simp] theorem State.setSp_draws (s : State) (r : StackReg) (v : Word) : (s.setSp r v).draws = s.draws := by cases r <;> rfl

@[simp] theorem State.withLog_a (s : State) (log : List Config.DeviceAccess) : (s.withLog log).a = s.a := rfl
@[simp] theorem State.withLog_b (s : State) (log : List Config.DeviceAccess) : (s.withLog log).b = s.b := rfl
@[simp] theorem State.withLog_x (s : State) (log : List Config.DeviceAccess) : (s.withLog log).x = s.x := rfl
@[simp] theorem State.withLog_y (s : State) (log : List Config.DeviceAccess) : (s.withLog log).y = s.y := rfl
@[simp] theorem State.withLog_u (s : State) (log : List Config.DeviceAccess) : (s.withLog log).u = s.u := rfl
@[simp] theorem State.withLog_s (s : State) (log : List Config.DeviceAccess) : (s.withLog log).s = s.s := rfl
@[simp] theorem State.withLog_pc (s : State) (log : List Config.DeviceAccess) : (s.withLog log).pc = s.pc := rfl
@[simp] theorem State.withLog_dp (s : State) (log : List Config.DeviceAccess) : (s.withLog log).dp = s.dp := rfl
@[simp] theorem State.withLog_cc (s : State) (log : List Config.DeviceAccess) : (s.withLog log).cc = s.cc := rfl
@[simp] theorem State.withLog_nmiArmed (s : State) (log : List Config.DeviceAccess) : (s.withLog log).nmiArmed = s.nmiArmed := rfl
@[simp] theorem State.withLog_nmiPending (s : State) (log : List Config.DeviceAccess) : (s.withLog log).nmiPending = s.nmiPending := rfl
@[simp] theorem State.withLog_runState (s : State) (log : List Config.DeviceAccess) : (s.withLog log).runState = s.runState := rfl
@[simp] theorem State.withLog_mem (s : State) (log : List Config.DeviceAccess) : (s.withLog log).mem = s.mem := rfl
@[simp] theorem State.withLog_memMap (s : State) (log : List Config.DeviceAccess) : (s.withLog log).memMap = s.memMap := rfl
@[simp] theorem State.withLog_inputs (s : State) (log : List Config.DeviceAccess) : (s.withLog log).inputs = s.inputs := rfl
@[simp] theorem State.withLog_policies (s : State) (log : List Config.DeviceAccess) : (s.withLog log).policies = s.policies := rfl
@[simp] theorem State.withLog_deviceLog (s : State) (log : List Config.DeviceAccess) : (s.withLog log).deviceLog = log := rfl
@[simp] theorem State.withLog_draws (s : State) (log : List Config.DeviceAccess) : (s.withLog log).draws = s.draws := rfl

@[simp] theorem State.toDevice_a (s : State) (d : Config.Device) (addr : Word) (w : Option Byte) : (s.toDevice d addr w).a = s.a := rfl
@[simp] theorem State.toDevice_b (s : State) (d : Config.Device) (addr : Word) (w : Option Byte) : (s.toDevice d addr w).b = s.b := rfl
@[simp] theorem State.toDevice_x (s : State) (d : Config.Device) (addr : Word) (w : Option Byte) : (s.toDevice d addr w).x = s.x := rfl
@[simp] theorem State.toDevice_y (s : State) (d : Config.Device) (addr : Word) (w : Option Byte) : (s.toDevice d addr w).y = s.y := rfl
@[simp] theorem State.toDevice_u (s : State) (d : Config.Device) (addr : Word) (w : Option Byte) : (s.toDevice d addr w).u = s.u := rfl
@[simp] theorem State.toDevice_s (s : State) (d : Config.Device) (addr : Word) (w : Option Byte) : (s.toDevice d addr w).s = s.s := rfl
@[simp] theorem State.toDevice_pc (s : State) (d : Config.Device) (addr : Word) (w : Option Byte) : (s.toDevice d addr w).pc = s.pc := rfl
@[simp] theorem State.toDevice_dp (s : State) (d : Config.Device) (addr : Word) (w : Option Byte) : (s.toDevice d addr w).dp = s.dp := rfl
@[simp] theorem State.toDevice_cc (s : State) (d : Config.Device) (addr : Word) (w : Option Byte) : (s.toDevice d addr w).cc = s.cc := rfl
@[simp] theorem State.toDevice_nmiArmed (s : State) (d : Config.Device) (addr : Word) (w : Option Byte) : (s.toDevice d addr w).nmiArmed = s.nmiArmed := rfl
@[simp] theorem State.toDevice_nmiPending (s : State) (d : Config.Device) (addr : Word) (w : Option Byte) : (s.toDevice d addr w).nmiPending = s.nmiPending := rfl
@[simp] theorem State.toDevice_runState (s : State) (d : Config.Device) (addr : Word) (w : Option Byte) : (s.toDevice d addr w).runState = s.runState := rfl
@[simp] theorem State.toDevice_mem (s : State) (d : Config.Device) (addr : Word) (w : Option Byte) : (s.toDevice d addr w).mem = s.mem := rfl
@[simp] theorem State.toDevice_memMap (s : State) (d : Config.Device) (addr : Word) (w : Option Byte) : (s.toDevice d addr w).memMap = s.memMap := rfl
@[simp] theorem State.toDevice_inputs (s : State) (d : Config.Device) (addr : Word) (w : Option Byte) : (s.toDevice d addr w).inputs = s.inputs := rfl
@[simp] theorem State.toDevice_policies (s : State) (d : Config.Device) (addr : Word) (w : Option Byte) : (s.toDevice d addr w).policies = s.policies := rfl
@[simp] theorem State.toDevice_deviceLog (s : State) (d : Config.Device) (addr : Word) (w : Option Byte) : (s.toDevice d addr w).deviceLog = ⟨d, addr, w⟩ :: s.deviceLog := rfl
@[simp] theorem State.toDevice_draws (s : State) (d : Config.Device) (addr : Word) (w : Option Byte) : (s.toDevice d addr w).draws = s.draws := rfl

@[simp] theorem State.withLog_withLog (s : State) (l1 l2 : List Config.DeviceAccess) :
    (s.withLog l1).withLog l2 = s.withLog l2 := rfl

@[simp] theorem State.withLog_deviceLog_self (s : State) : s.withLog s.deviceLog = s := rfl

theorem State.withLog_setSp (s : State) (r : StackReg) (p : Word) (log : List Config.DeviceAccess) :
    (s.setSp r p).withLog log = (s.withLog log).setSp r p := by
  cases r <;> rfl

@[simp] theorem State.sp_withLog (s : State) (r : StackReg) (log : List Config.DeviceAccess) :
    (s.withLog log).sp r = s.sp r := by
  cases r <;> rfl

@[simp] theorem State.get16_set16 (s : State) (r : Reg16) (v : Word) : (s.set16 r v).get16 r = v := by
  cases r <;> simp [State.get16, State.set16, State.d]

@[simp] theorem State.get8_set8 (s : State) (r : Reg8) (v : Byte) : (s.set8 r v).get8 r = v := by
  cases r <;> rfl

@[simp] theorem State.getIndex_setIndex (s : State) (r : IndexReg) (v : Word) :
    (s.setIndex r v).getIndex r = v := by
  cases r <;> rfl

@[simp] theorem State.sp_setSp (s : State) (r : StackReg) (v : Word) : (s.setSp r v).sp r = v := by
  cases r <;> rfl

@[simp] theorem State.setSp_setSp (s : State) (r : StackReg) (v w : Word) :
    (s.setSp r v).setSp r w = s.setSp r w := by
  cases r <;> rfl

@[simp] theorem State.setSp_sp (s : State) (r : StackReg) : s.setSp r (s.sp r) = s := by
  cases r <;> rfl

end Sys2Proof.Machine
end

