-- ==== Sys2Proof/Laws/Flags.lean ====
section
/-! SUPPORT. The bits of CC, and the arithmetic laws as numbers. -/

namespace Sys2Proof.Machine

theorem ccGet_ccPut (g k : Flag) (q : Bool) (cc : Byte) :
    ccGet k (ccPut g q cc) = if k = g then q else ccGet k cc := by
  cases g <;> cases k <;> cases q <;> simp [ccGet, ccPut, Flag.bit]

@[simp] theorem ccGet_ccPut_same (g : Flag) (q : Bool) (cc : Byte) : ccGet g (ccPut g q cc) = q := by
  simp [ccGet_ccPut]

theorem State.flag_def (s : State) (g : Flag) : s.flag g = ccGet g s.cc := rfl

@[simp] theorem State.flag_setFlag (s : State) (g k : Flag) (q : Bool) :
    (s.setFlag g q).flag k = if k = g then q else s.flag k := by
  simp [State.flag, State.setFlag, ccGet_ccPut]

@[simp] theorem State.flag_setNZ {w : Nat} (s : State) (r : BitVec w) (k : Flag) :
    (s.setNZ r).flag k = if k = .z then isZero r else if k = .n then isNeg r else s.flag k := by
  simp [State.setNZ]

@[simp] theorem State.flag_setNZ0 {w : Nat} (s : State) (r : BitVec w) (k : Flag) :
    (s.setNZ0 r).flag k =
      if k = .v then false else if k = .z then isZero r else if k = .n then isNeg r else s.flag k := by
  simp [State.setNZ0]

@[simp] theorem State.flag_setNZVC {w : Nat} (s : State) (o : Alu w) (k : Flag) :
    (s.setNZVC o).flag k =
      if k = .c then o.c else if k = .v then o.v else if k = .z then o.z else if k = .n then o.n else s.flag k := by
  simp [State.setNZVC]

@[simp] theorem State.flag_drawFlag (s : State) (g k : Flag) (o : Config.OpenFlag) (cc : Byte) (v1 v2 : Word) :
    (s.drawFlag g o cc v1 v2).flag k =
      if k = g ∧ s.policies.flags.draws o = true then Config.openFlag o s.draws cc v1 v2 else s.flag k := by
  cases h : s.policies.flags.draws o <;> simp [State.flag, State.drawFlag, ccGet_ccPut, h]

/-- A state's flags are read from CC alone. -/
theorem State.flag_congr {s t : State} (h : t.cc = s.cc) (k : Flag) : t.flag k = s.flag k := by
  simp [State.flag, h]

@[simp] theorem State.flag_poke (s : State) (addr : Word) (v : Byte) (k : Flag) :
    (s.poke addr v).flag k = s.flag k := rfl

@[simp] theorem State.flag_armNmi (s : State) (writer : Config.NmiArmSet → Bool) (k : Flag) :
    (s.armNmi writer).flag k = s.flag k := rfl

@[simp] theorem State.flag_withLog (s : State) (log : List Config.DeviceAccess) (k : Flag) :
    (s.withLog log).flag k = s.flag k := rfl

@[simp] theorem State.flag_toDevice (s : State) (d : Config.Device) (addr : Word) (w : Option Byte) (k : Flag) :
    (s.toDevice d addr w).flag k = s.flag k := rfl

@[simp] theorem State.flag_set16 (s : State) (r : Reg16) (v : Word) (k : Flag) :
    (s.set16 r v).flag k = s.flag k := State.flag_congr (by simp) k

@[simp] theorem State.flag_setIndex (s : State) (r : IndexReg) (v : Word) (k : Flag) :
    (s.setIndex r v).flag k = s.flag k := State.flag_congr (by simp) k

@[simp] theorem State.flag_setSp (s : State) (r : StackReg) (v : Word) (k : Flag) :
    (s.setSp r v).flag k = s.flag k := State.flag_congr (by simp) k

/-- Two CC values with the same eight flags are equal: none of the bits is reserved (R27). -/
theorem cc_ext {p q : Byte} (h : ∀ g, ccGet g p = ccGet g q) : p = q := by
  apply BitVec.eq_of_getLsbD_eq
  intro i hi
  have h7 := h .e; have h6 := h .f; have h5 := h .h; have h4 := h .i
  have h3 := h .n; have h2 := h .z; have h1 := h .v; have h0 := h .c
  simp only [ccGet, Flag.bit] at h0 h1 h2 h3 h4 h5 h6 h7
  rcases i with _ | _ | _ | _ | _ | _ | _ | _ | i
  all_goals first | assumption | omega

theorem isZero_iff {w : Nat} (v : BitVec w) : isZero v = decide (v.toNat = 0) := by
  rw [isZero, Bool.eq_iff_iff]
  simp [BitVec.toNat_eq]

theorem isNeg_byte (v : Byte) : isNeg v = decide (128 ≤ v.toNat) := by
  simp [isNeg, BitVec.msb_eq_decide]

theorem isNeg_word (v : Word) : isNeg v = decide (32768 ≤ v.toNat) := by
  simp [isNeg, BitVec.msb_eq_decide]

/-! ## The adders as numbers: the result modulo the width, C as unsigned, V as signed overflow (R200 to R203) -/

theorem add8_r (a v : Byte) (c : Bool) : (add8 a v c).r.toNat = (a.toNat + v.toNat + bit01 c) % 256 := by
  simp [add8]

theorem add8_c (a v : Byte) (c : Bool) : (add8 a v c).c = decide (256 ≤ a.toNat + v.toNat + bit01 c) := by
  simp only [add8, gt_iff_lt, decide_eq_decide]
  omega

theorem sub8_r (a v : Byte) (c : Bool) :
    ((sub8 a v c).r.toNat : Int) = ((a.toNat : Int) - v.toNat - bit01 c) % 256 := by
  simp [sub8, BitVec.toNat_ofInt]
  omega

theorem sub8_c (a v : Byte) (c : Bool) : (sub8 a v c).c = decide (a.toNat < v.toNat + bit01 c) := by
  simp only [sub8, decide_eq_decide]
  omega

theorem add16_r (a v : Word) : (add16 a v).r.toNat = (a.toNat + v.toNat) % 65536 := by
  simp [add16]

theorem add16_c (a v : Word) : (add16 a v).c = decide (65536 ≤ a.toNat + v.toNat) := by
  simp only [add16, gt_iff_lt, decide_eq_decide]
  omega

theorem sub16_r (a v : Word) : ((sub16 a v).r.toNat : Int) = ((a.toNat : Int) - v.toNat) % 65536 := by
  simp [sub16, BitVec.toNat_ofInt]
  omega

theorem sub16_c (a v : Word) : (sub16 a v).c = decide (a.toNat < v.toNat) := by
  simp only [sub16, decide_eq_decide]
  omega

theorem add8_n (a v : Byte) (c : Bool) : (add8 a v c).n = isNeg (add8 a v c).r := rfl
theorem add8_z (a v : Byte) (c : Bool) : (add8 a v c).z = isZero (add8 a v c).r := rfl
theorem sub8_n (a v : Byte) (c : Bool) : (sub8 a v c).n = isNeg (sub8 a v c).r := rfl
theorem sub8_z (a v : Byte) (c : Bool) : (sub8 a v c).z = isZero (sub8 a v c).r := rfl
theorem add16_n (a v : Word) : (add16 a v).n = isNeg (add16 a v).r := rfl
theorem add16_z (a v : Word) : (add16 a v).z = isZero (add16 a v).r := rfl
theorem sub16_n (a v : Word) : (sub16 a v).n = isNeg (sub16 a v).r := rfl
theorem sub16_z (a v : Word) : (sub16 a v).z = isZero (sub16 a v).r := rfl

theorem add8_v (a v : Byte) (c : Bool) :
    (add8 a v c).v = decide (a.toInt + v.toInt + bit01 c < -128 ∨ 127 < a.toInt + v.toInt + bit01 c) := by
  have ha := a.isLt
  have hv := v.isLt
  have hr := add8_r a v c
  have hc : bit01 c ≤ 1 := by cases c <;> decide
  show (a.msb == v.msb && (add8 a v c).r.msb != a.msb) = _
  rw [Bool.eq_iff_iff]
  simp only [BitVec.msb_eq_decide, hr, BitVec.toInt_eq_toNat_cond, Bool.and_eq_true, beq_iff_eq,
    bne_iff_ne, ne_eq, decide_eq_decide, decide_eq_true_eq]
  split <;> split <;> omega

theorem sub8_v (a v : Byte) (c : Bool) :
    (sub8 a v c).v = decide (a.toInt - v.toInt - bit01 c < -128 ∨ 127 < a.toInt - v.toInt - bit01 c) := by
  have ha := a.isLt
  have hv := v.isLt
  have hr := sub8_r a v c
  have hc : bit01 c ≤ 1 := by cases c <;> decide
  show (a.msb != v.msb && (sub8 a v c).r.msb != a.msb) = _
  rw [Bool.eq_iff_iff]
  simp only [BitVec.msb_eq_decide, BitVec.toInt_eq_toNat_cond, Bool.and_eq_true,
    bne_iff_ne, ne_eq, decide_eq_decide, decide_eq_true_eq]
  split <;> split <;> omega

theorem add16_v (a v : Word) :
    (add16 a v).v = decide (a.toInt + v.toInt < -32768 ∨ 32767 < a.toInt + v.toInt) := by
  have ha := a.isLt
  have hv := v.isLt
  have hr := add16_r a v
  show (a.msb == v.msb && (add16 a v).r.msb != a.msb) = _
  rw [Bool.eq_iff_iff]
  simp only [BitVec.msb_eq_decide, hr, BitVec.toInt_eq_toNat_cond, Bool.and_eq_true, beq_iff_eq,
    bne_iff_ne, ne_eq, decide_eq_decide, decide_eq_true_eq]
  split <;> split <;> omega

theorem sub16_v (a v : Word) :
    (sub16 a v).v = decide (a.toInt - v.toInt < -32768 ∨ 32767 < a.toInt - v.toInt) := by
  have ha := a.isLt
  have hv := v.isLt
  have hr := sub16_r a v
  show (a.msb != v.msb && (sub16 a v).r.msb != a.msb) = _
  rw [Bool.eq_iff_iff]
  simp only [BitVec.msb_eq_decide, BitVec.toInt_eq_toNat_cond, Bool.and_eq_true,
    bne_iff_ne, ne_eq, decide_eq_decide, decide_eq_true_eq]
  split <;> split <;> omega

theorem halfCarry_iff (a v : Byte) (c : Bool) :
    halfCarry a v c = decide (16 ≤ a.toNat % 16 + v.toNat % 16 + bit01 c) := by
  simp only [halfCarry, gt_iff_lt, decide_eq_decide]
  omega

theorem mul8_toNat (a b : Byte) : (mul8 a b).toNat = a.toNat * b.toNat := by
  have h : a.toNat * b.toNat ≤ 255 * 255 :=
    Nat.mul_le_mul (by have := a.isLt; omega) (by have := b.isLt; omega)
  rw [mul8, BitVec.toNat_ofNat]
  omega

end Sys2Proof.Machine
end

