-- ==== Sys2Proof/Laws/Memory.lean ====
section
/-! SUPPORT. Memory: a read after a write, and the canonical form that every operation keeps. -/

namespace Sys2Proof.Machine

theorem Memory.read_write (m : Memory) (p q : Nat) (v : Byte) :
    Memory.read (Memory.write m p v) q = if q = p then some v else Memory.read m q := by
  induction m with
  | nil => simp [Memory.write, Memory.read]
  | cons e rest ih =>
    obtain ⟨k, w⟩ := e
    simp only [Memory.write]
    split
    · simp [Memory.read]
    · split
      · rename_i h
        subst h
        simp only [Memory.read]
        split <;> simp_all
      · simp only [Memory.read, ih]
        split <;> split <;> simp_all

theorem Memory.mem_write {m : Memory} {p : Nat} {v : Byte} {e : Host.Cell} (h : e ∈ Memory.write m p v) :
    e = (p, v) ∨ e ∈ m := by
  induction m with
  | nil => simpa [Memory.write] using h
  | cons d rest ih =>
    obtain ⟨k, w⟩ := d
    simp only [Memory.write] at h
    split at h
    · simpa using h
    · split at h
      · rcases List.mem_cons.1 h with h | h
        · exact .inl h
        · exact .inr (List.mem_cons_of_mem _ h)
      · rcases List.mem_cons.1 h with h | h
        · exact .inr (h ▸ List.mem_cons_self)
        · exact (ih h).imp id (List.mem_cons_of_mem _)

/-- Writing keeps the canonical form. -/
theorem Memory.wf_write {m : Memory} (h : Memory.wf m) {p : Nat} (hp : p < 65536) (v : Byte) :
    Memory.wf (Memory.write m p v) := by
  refine ⟨?_, fun e he => ?_⟩
  · have hs := h.1
    clear h
    induction m with
    | nil => simp [Memory.write]
    | cons d rest ih =>
      obtain ⟨k, w⟩ := d
      have hrest := List.pairwise_cons.1 hs
      simp only [Memory.write]
      split
      · rename_i hlt
        refine List.pairwise_cons.2 ⟨fun e he => ?_, hs⟩
        rcases List.mem_cons.1 he with rfl | he
        · exact hlt
        · exact Nat.lt_trans hlt (hrest.1 e he)
      · split
        · rename_i heq
          subst heq
          exact List.pairwise_cons.2 ⟨fun e he => hrest.1 e he, hrest.2⟩
        · refine List.pairwise_cons.2 ⟨fun e he => ?_, ih hrest.2⟩
          rcases Memory.mem_write he with rfl | he
          · show k < p
            omega
          · exact hrest.1 e he
  · rcases Memory.mem_write he with rfl | he
    · exact hp
    · exact h.2 e he

theorem State.byteAt_poke (s : State) (p q : Word) (v : Byte) :
    (s.poke p v).byteAt q = if q = p then some v else s.byteAt q := by
  simp [State.byteAt, Memory.read_write, BitVec.toNat_inj]

@[simp] theorem State.byteAt_poke_same (s : State) (p : Word) (v : Byte) : (s.poke p v).byteAt p = some v := by
  simp [State.byteAt_poke]

/-- A state's bytes are read from its memory alone. -/
theorem State.byteAt_congr {s t : State} (h : t.mem = s.mem) (q : Word) : t.byteAt q = s.byteAt q := by
  simp [State.byteAt, h]

/-- What stands at an address depends on the map alone. -/
theorem State.kind_congr {s t : State} (h : t.memMap = s.memMap) (q : Word) : t.kind q = s.kind q := by
  simp [State.kind, h]

theorem State.wf_poke {s : State} (h : Memory.wf s.mem) (p : Word) (v : Byte) : Memory.wf (s.poke p v).mem :=
  Memory.wf_write h p.isLt v

/-- A list of addresses that all hold `v` reads as `v` wherever it has an entry. -/
theorem Memory.read_const {m : Memory} {v : Byte} {p : Nat} (hv : ∀ e ∈ m, e.2 = v) (hp : ∃ e ∈ m, e.1 = p) :
    Memory.read m p = some v := by
  induction m with
  | nil => simp at hp
  | cons e rest ih =>
    obtain ⟨k, w⟩ := e
    simp only [Memory.read]
    split
    · exact congrArg some (hv (k, w) List.mem_cons_self)
    · rename_i hne
      refine ih (fun e he => hv e (List.mem_cons_of_mem _ he)) ?_
      obtain ⟨e, he, hk⟩ := hp
      rcases List.mem_cons.1 he with rfl | he
      · exact absurd hk.symm hne
      · exact ⟨e, he, hk⟩

end Sys2Proof.Machine
end

