-- ==== Sys2Proof/Laws/Ops.lean ====
section
/-! SUPPORT. What each shared operation can do, said once: "if it answers next, then ...", and where it does. -/

namespace Sys2Proof.Machine

@[simp] theorem Result.andThen_next {α β : Type} (x : α) (k : α → Result β) :
    Result.andThen (.next x) k = k x := rfl

@[simp] theorem Result.andThen_fault {α β : Type} (r : Fault) (k : α → Result β) :
    Result.andThen (.fault r) k = .fault r := rfl

@[simp] theorem Result.andThen_refused {α β : Type} (r : Refusal) (k : α → Result β) :
    Result.andThen (.refused r) k = .refused r := rfl

theorem Result.andThen_eq_next {α β : Type} {o : Result α} {k : α → Result β} {y : β} :
    o.andThen k = .next y ↔ ∃ x, o = .next x ∧ k x = .next y := by
  cases o <;> simp

/-! ## Memory accesses -/

/-- A read of a byte gives what ordinary memory holds and changes nothing, or a device's free value, and the device has
been read (R63, R68, R70). -/
theorem read8_eq_next {acc : Config.Access} {addr : Word} {s t : State} {v : Byte} :
    read8 acc addr s = .next (v, t) ↔
      (s.Reads addr v ∧ t = s) ∨
        ∃ d, s.kind addr = .device d ∧ d.allows acc = true ∧ v = Config.deviceByte s.deviceLog d addr ∧
          t = s.toDevice d addr none := by
  unfold read8 State.Reads
  cases s.kind addr with
  | ram => cases h : s.byteAt addr <;> simp [readHeld, h, eq_comm (a := t)]
  | rom => cases h : s.byteAt addr <;> simp [readHeld, h, eq_comm (a := t)]
  | unmapped => simp
  | device d => cases h : d.allows acc <;> simp [h, eq_comm (a := t), eq_comm (a := v)]

theorem read8_of_reads {addr : Word} {s : State} {v : Byte} (acc : Config.Access) (h : s.Reads addr v) :
    read8 acc addr s = .next (v, s) := read8_eq_next.2 (.inl ⟨h, rfl⟩)

/-- A read changes nothing but the accesses that reached a device. -/
theorem read8_state {acc : Config.Access} {addr : Word} {s t : State} {v : Byte}
    (h : read8 acc addr s = .next (v, t)) : ∃ log, t = s.withLog log := by
  rcases read8_eq_next.1 h with ⟨-, rfl⟩ | ⟨d, -, -, -, rfl⟩
  · exact ⟨_, rfl⟩
  · exact ⟨_, rfl⟩

theorem State.Reads.congr {s t : State} {addr : Word} {v : Byte} (h : s.Reads addr v)
    (hm : t.mem = s.mem) (hk : t.memMap = s.memMap) : t.Reads addr v := by
  rwa [State.Reads, State.kind_congr hk, State.byteAt_congr hm]

theorem read16_of_reads {addr : Word} {s : State} {hi lo : Byte} (acc : Config.Access) (h : s.Reads16 addr hi lo) :
    read16 acc addr s = .next (be16 hi lo, s) := by
  simp [read16, read8_of_reads acc h.1, read8_of_reads acc h.2]

theorem read16_state {acc : Config.Access} {addr : Word} {s t : State} {v : Word}
    (h : read16 acc addr s = .next (v, t)) : ∃ log, t = s.withLog log := by
  obtain ⟨⟨hi, x⟩, h1, h2⟩ := Result.andThen_eq_next.1 h
  obtain ⟨⟨lo, y⟩, h3, h4⟩ := Result.andThen_eq_next.1 h2
  obtain ⟨l1, rfl⟩ := read8_state h1
  obtain ⟨l2, rfl⟩ := read8_state h3
  cases h4
  exact ⟨l2, rfl⟩

/-- A write of a byte writes RAM, or reaches a device (R63, R68, R70). -/
theorem write8_eq_next {acc : Config.Access} {addr : Word} {v : Byte} {s t : State} :
    write8 acc addr v s = .next t ↔
      (s.kind addr = .ram ∧ t = s.poke addr v) ∨
        ∃ d, s.kind addr = .device d ∧ d.allows acc = true ∧ t = s.toDevice d addr (some v) := by
  unfold write8
  cases s.kind addr with
  | device d => cases h : d.allows acc <;> simp [h, eq_comm (a := t)]
  | _ => simp [eq_comm (a := t)]

theorem write8_of_ram {addr : Word} {s : State} (acc : Config.Access) (v : Byte) (h : s.kind addr = .ram) :
    write8 acc addr v s = .next (s.poke addr v) := write8_eq_next.2 (.inl ⟨h, rfl⟩)

@[simp] theorem State.kind_poke (s : State) (p q : Word) (v : Byte) : (s.poke p v).kind q = s.kind q := rfl

@[simp] theorem State.kind_setSp (s : State) (r : StackReg) (p q : Word) : (s.setSp r p).kind q = s.kind q :=
  State.kind_congr (by simp) q

@[simp] theorem State.kind_setFlag (s : State) (g : Flag) (b : Bool) (q : Word) : (s.setFlag g b).kind q = s.kind q :=
  State.kind_congr (by simp) q

@[simp] theorem State.byteAt_setSp (s : State) (r : StackReg) (p q : Word) :
    (s.setSp r p).byteAt q = s.byteAt q := State.byteAt_congr (by simp) q

@[simp] theorem State.byteAt_setFlag (s : State) (g : Flag) (b : Bool) (q : Word) :
    (s.setFlag g b).byteAt q = s.byteAt q := State.byteAt_congr (by simp) q

@[simp] theorem State.kind_withLog (s : State) (log : List Config.DeviceAccess) (q : Word) :
    (s.withLog log).kind q = s.kind q := rfl

@[simp] theorem State.byteAt_withLog (s : State) (log : List Config.DeviceAccess) (q : Word) :
    (s.withLog log).byteAt q = s.byteAt q := rfl

theorem write16_of_ram {addr : Word} {s : State} (acc : Config.Access) (v : Word) (h1 : s.kind addr = .ram)
    (h2 : s.kind (addr + 1#16) = .ram) :
    write16 acc addr v s = .next ((s.poke addr (hi8 v)).poke (addr + 1#16) (lo8 v)) := by
  simp [write16, write8_of_ram acc _ h1, write8_of_ram, h2]

/-! ## Stacks -/

theorem push8_of_ram {r : StackReg} {s : State} (v : Byte) (h : s.kind (s.sp r - 1#16) = .ram) :
    push8 r v s = .next ((s.setSp r (s.sp r - 1#16)).poke (s.sp r - 1#16) v) :=
  write8_of_ram _ v (by simpa using h)

theorem State.setSp_poke (s : State) (r : StackReg) (p q : Word) (v : Byte) :
    (s.poke q v).setSp r p = (s.setSp r p).poke q v := by
  cases r <;> rfl

@[simp] theorem State.sp_poke (s : State) (r : StackReg) (q : Word) (v : Byte) :
    (s.poke q v).sp r = s.sp r := by
  cases r <;> rfl

theorem push16_of_ram {r : StackReg} {s : State} (v : Word) (h1 : s.kind (s.sp r - 1#16) = .ram)
    (h2 : s.kind (s.sp r - 2#16) = .ram) :
    push16 r v s =
      .next (((s.setSp r (s.sp r - 2#16)).poke (s.sp r - 1#16) (lo8 v)).poke (s.sp r - 2#16) (hi8 v)) := by
  have hsub : s.sp r - 1#16 - 1#16 = s.sp r - 2#16 := by bv_omega
  rw [push16, push8_of_ram _ h1, Result.andThen_next, push8_of_ram]
  · simp only [State.sp_poke, State.sp_setSp, hsub, State.setSp_poke, State.setSp_setSp]
  · simpa [hsub] using h2

theorem pull8_of_reads {r : StackReg} {s : State} {v : Byte} (h : s.Reads (s.sp r) v) :
    pull8 r s = .next (v, s.setSp r (s.sp r + 1#16)) := by
  simp [pull8, read8_of_reads .other h]

/-- A pull of a byte moves its stack pointer. -/
theorem pull8_state {r : StackReg} {s t : State} {v : Byte} (h : pull8 r s = .next (v, t)) :
    ∃ log, t = (s.withLog log).setSp r (s.sp r + 1#16) := by
  obtain ⟨⟨b, x⟩, h1, h2⟩ := Result.andThen_eq_next.1 h
  obtain ⟨log, rfl⟩ := read8_state h1
  cases h2
  exact ⟨log, by simp⟩

theorem pull16_of_reads {r : StackReg} {s : State} {hi lo : Byte} (h : s.Reads16 (s.sp r) hi lo) :
    pull16 r s = .next (be16 hi lo, s.setSp r (s.sp r + 2#16)) := by
  have hadd : s.sp r + 1#16 + 1#16 = s.sp r + 2#16 := by bv_omega
  have h2 : (s.setSp r (s.sp r + 1#16)).Reads ((s.setSp r (s.sp r + 1#16)).sp r) lo := by
    simpa using h.2.congr (by simp) (by simp)
  simp [pull16, pull8_of_reads h.1, pull8_of_reads h2, hadd]

/-- A pull of a word moves its stack pointer. -/
theorem pull16_state {r : StackReg} {s t : State} {v : Word} (h : pull16 r s = .next (v, t)) :
    ∃ log, t = (s.withLog log).setSp r (s.sp r + 2#16) := by
  have hadd : s.sp r + 1#16 + 1#16 = s.sp r + 2#16 := by bv_omega
  obtain ⟨⟨hi, x⟩, h1, h2⟩ := Result.andThen_eq_next.1 h
  obtain ⟨⟨lo, y⟩, h3, h4⟩ := Result.andThen_eq_next.1 h2
  obtain ⟨l1, rfl⟩ := pull8_state h1
  obtain ⟨l2, rfl⟩ := pull8_state h3
  cases h4
  exact ⟨l2, by simp [State.withLog_setSp, hadd]⟩

/-! ## What pushing, pulling and addressing leave alone -/

/-- Only RAM has changed, and the canonical form stands. -/
structure StoresOnly (s t : State) : Prop where
  map : t.memMap = s.memMap
  policies : t.policies = s.policies
  fixed : ∀ addr, s.kind addr ≠ .ram → t.byteAt addr = s.byteAt addr
  wf : Memory.wf s.mem → Memory.wf t.mem

theorem StoresOnly.of_eq {s t : State} (hm : t.mem = s.mem) (hk : t.memMap = s.memMap)
    (hp : t.policies = s.policies) : StoresOnly s t :=
  ⟨hk, hp, fun q _ => State.byteAt_congr hm q, fun h => hm ▸ h⟩

theorem StoresOnly.trans {s t u : State} (h1 : StoresOnly s t) (h2 : StoresOnly t u) : StoresOnly s u :=
  ⟨h2.map.trans h1.map, h2.policies.trans h1.policies,
    fun q hq => (h2.fixed q (by rwa [State.kind_congr h1.map])).trans (h1.fixed q hq), fun h => h2.wf (h1.wf h)⟩

theorem StoresOnly.poke {s : State} {p : Word} (h : s.kind p = .ram) (v : Byte) : StoresOnly s (s.poke p v) :=
  ⟨rfl, rfl, fun q hq => by rw [State.byteAt_poke, if_neg]; rintro rfl; exact hq h, fun hw => State.wf_poke hw p v⟩

theorem StoresOnly.write8 {acc : Config.Access} {addr : Word} {v : Byte} {s t : State}
    (h : write8 acc addr v s = .next t) : StoresOnly s t := by
  rcases write8_eq_next.1 h with ⟨hk, rfl⟩ | ⟨d, -, -, rfl⟩
  · exact .poke hk v
  · exact .of_eq rfl rfl rfl

theorem StoresOnly.write16 {acc : Config.Access} {addr : Word} {v : Word} {s t : State}
    (h : write16 acc addr v s = .next t) : StoresOnly s t := by
  obtain ⟨x, h1, h2⟩ := Result.andThen_eq_next.1 h
  exact (StoresOnly.write8 h1).trans (.write8 h2)

/-- A push changes memory, or reaches a device, and changes its stack pointer, nothing else. -/
structure Pushed (r : StackReg) (s t : State) : Prop where
  stores : StoresOnly s t
  shape : ∃ m log p, t = ({ s with mem := m }.withLog log).setSp r p

theorem Pushed.refl (r : StackReg) (s : State) : Pushed r s s :=
  ⟨.of_eq rfl rfl rfl, s.mem, s.deviceLog, s.sp r, by cases r <;> rfl⟩

theorem Pushed.trans {r : StackReg} {s t u : State} (h1 : Pushed r s t) (h2 : Pushed r t u) : Pushed r s u := by
  refine ⟨h1.stores.trans h2.stores, ?_⟩
  obtain ⟨m1, l1, p1, rfl⟩ := h1.shape
  obtain ⟨m2, l2, p2, rfl⟩ := h2.shape
  exact ⟨m2, l2, p2, by cases r <;> rfl⟩

theorem Pushed.push8 {r : StackReg} {v : Byte} {s t : State} (h : push8 r v s = .next t) : Pushed r s t := by
  refine ⟨(StoresOnly.of_eq (t := s.setSp r (s.sp r - 1#16)) (by simp) (by simp) (by simp)).trans (.write8 h), ?_⟩
  rcases write8_eq_next.1 h with ⟨-, rfl⟩ | ⟨d, -, -, rfl⟩
  · exact ⟨s.mem.write (s.sp r - 1#16).toNat v, s.deviceLog, s.sp r - 1#16, by cases r <;> rfl⟩
  · exact ⟨s.mem, ⟨d, s.sp r - 1#16, some v⟩ :: s.deviceLog, s.sp r - 1#16, by cases r <;> rfl⟩

theorem Pushed.push16 {r : StackReg} {v : Word} {s t : State} (h : push16 r v s = .next t) : Pushed r s t := by
  obtain ⟨x, h1, h2⟩ := Result.andThen_eq_next.1 h
  exact (Pushed.push8 h1).trans (.push8 h2)

theorem Pushed.pushItem {r : StackReg} {it : StackItem} {s t : State} (h : pushItem r it s = .next t) :
    Pushed r s t := by
  cases it
  all_goals first | exact .push8 h | exact .push16 h

theorem Pushed.pushItems {r : StackReg} {mask : Byte} {items : List StackItem} {s t : State}
    (h : pushItems r mask items s = .next t) : Pushed r s t := by
  induction items generalizing s with
  | nil =>
    cases h
    exact .refl r _
  | cons it rest ih =>
    simp only [Machine.pushItems] at h
    split at h
    · obtain ⟨x, h1, h2⟩ := Result.andThen_eq_next.1 h
      exact (Pushed.pushItem h1).trans (ih h2)
    · exact ih h

theorem Pushed.pushRegs {r : StackReg} {mask : Byte} {s t : State} (h : pushRegs r mask s = .next t) :
    Pushed r s t := Pushed.pushItems h

/-- A pull changes registers only, and the accesses that reached a device. -/
structure Pulled (s t : State) : Prop where
  mem : t.mem = s.mem
  map : t.memMap = s.memMap
  armed : t.nmiArmed = s.nmiArmed
  pending : t.nmiPending = s.nmiPending
  runState : t.runState = s.runState
  inputs : t.inputs = s.inputs
  policies : t.policies = s.policies
  draws : t.draws = s.draws

theorem Pulled.refl (s : State) : Pulled s s := by constructor <;> rfl

theorem Pulled.trans {s t u : State} (h1 : Pulled s t) (h2 : Pulled t u) : Pulled s u :=
  ⟨h2.mem.trans h1.mem, h2.map.trans h1.map, h2.armed.trans h1.armed, h2.pending.trans h1.pending,
    h2.runState.trans h1.runState, h2.inputs.trans h1.inputs, h2.policies.trans h1.policies, h2.draws.trans h1.draws⟩

theorem Pulled.setSp (s : State) (r : StackReg) (p : Word) : Pulled s (s.setSp r p) := by
  constructor <;> simp

theorem Pulled.pullItem {r : StackReg} {it : StackItem} {s t : State} (h : pullItem r it s = .next t) :
    Pulled s t := by
  cases it
  case cc | a | b | dp =>
    obtain ⟨⟨v, x⟩, h1, h2⟩ := Result.andThen_eq_next.1 h
    obtain ⟨_, rfl⟩ := pull8_state h1
    cases h2
    constructor <;> simp
  all_goals
    obtain ⟨⟨v, x⟩, h1, h2⟩ := Result.andThen_eq_next.1 h
    obtain ⟨_, rfl⟩ := pull16_state h1
    cases h2
    constructor <;> simp

theorem Pulled.pullItems {r : StackReg} {mask : Byte} {items : List StackItem} {s t : State}
    (h : pullItems r mask items s = .next t) : Pulled s t := by
  induction items generalizing s with
  | nil =>
    cases h
    exact .refl _
  | cons it rest ih =>
    simp only [Machine.pullItems] at h
    split at h
    · obtain ⟨x, h1, h2⟩ := Result.andThen_eq_next.1 h
      exact (Pulled.pullItem h1).trans (ih h2)
    · exact ih h

theorem Pulled.pullRegs {r : StackReg} {mask : Byte} {s t : State} (h : pullRegs r mask s = .next t) :
    Pulled s t := Pulled.pullItems h

/-- The end of every entry, the vector in ordinary memory: the masks, the latch and PC change, nothing else (R411 to
R413). -/
theorem enterVector_of_reads {ev : Event} {s : State} {hi lo : Byte} (h : s.Reads16 ev.vector hi lo) :
    enterVector ev s = .next { ev.clearLatch (ev.setMasks s) with pc := be16 hi lo } := by
  have hm : (ev.clearLatch (ev.setMasks s)).mem = s.mem := by cases ev <;> rfl
  have hk : (ev.clearLatch (ev.setMasks s)).memMap = s.memMap := by cases ev <;> rfl
  rw [enterVector, read16_of_reads .other ⟨h.1.congr hm hk, h.2.congr hm hk⟩]
  rfl

/-- The end of every entry, wherever the vector lies. -/
theorem enterVector_state {ev : Event} {s t : State} (h : enterVector ev s = .next t) :
    ∃ log pc, t = { (ev.clearLatch (ev.setMasks s)).withLog log with pc := pc } := by
  obtain ⟨⟨pc, x⟩, h1, h2⟩ := Result.andThen_eq_next.1 h
  obtain ⟨log, rfl⟩ := read16_state h1
  cases h2
  exact ⟨log, pc, rfl⟩

/-- Taking an interrupt: a frame pushed on S with E as the event has it, then the entry (R409, R410). -/
theorem takeInterrupt_eq_next {ev : Event} {s t : State} :
    takeInterrupt ev s = .next t ↔
      ∃ m, pushRegs .s ev.frameMask (s.setFlag .e ev.entire) = .next m ∧ enterVector ev m = .next t :=
  Result.andThen_eq_next

/-- Returning from an interrupt: registers only. -/
theorem Pulled.returnFromInterrupt {s t : State} (h : returnFromInterrupt s = .next t) : Pulled s t := by
  obtain ⟨x, h1, h2⟩ := Result.andThen_eq_next.1 h
  exact (Pulled.pullRegs h1).trans (.pullRegs h2)

end Sys2Proof.Machine
end

