-- ==== Sys2Proof/Laws/Operands.lean ====
section
/-! SUPPORT. What computing an operand's address can do, and how frames are put together. -/

namespace Sys2Proof.Machine

/-! ## Frames -/

theorem ChangesOnly.refl (regs : List RegName) (flags : List Flag) (bytes : List Word) (s : State) :
    ChangesOnly regs flags bytes s s :=
  ⟨fun _ _ => rfl, fun _ _ => rfl, fun _ _ => rfl, rfl, rfl, rfl, rfl, rfl, rfl⟩

/-- Two changes one after the other. -/
theorem ChangesOnly.trans {r1 r2 : List RegName} {f1 f2 : List Flag} {b1 b2 : List Word} {s t u : State}
    (h1 : ChangesOnly r1 f1 b1 s t) (h2 : ChangesOnly r2 f2 b2 t u) :
    ChangesOnly (r1 ++ r2) (f1 ++ f2) (b1 ++ b2) s u where
  regs r hr := by
    rw [List.mem_append, not_or] at hr
    rw [h2.regs r hr.2, h1.regs r hr.1]
  flags g hg := by
    rw [List.mem_append, not_or] at hg
    rw [h2.flags g hg.2, h1.flags g hg.1]
  bytes a ha := by
    rw [List.mem_append, not_or] at ha
    rw [h2.bytes a ha.2, h1.bytes a ha.1]
  armed := h2.armed.trans h1.armed
  pending := h2.pending.trans h1.pending
  runState := h2.runState.trans h1.runState
  memMap := h2.memMap.trans h1.memMap
  policies := h2.policies.trans h1.policies
  inputs := h2.inputs.trans h1.inputs

/-- A frame may name more than changes. -/
theorem ChangesOnly.mono {r1 r2 : List RegName} {f1 f2 : List Flag} {b1 b2 : List Word} {s t : State}
    (h : ChangesOnly r1 f1 b1 s t) (hr : ∀ r ∈ r1, r ∈ r2) (hf : ∀ g ∈ f1, g ∈ f2) (hb : ∀ a ∈ b1, a ∈ b2) :
    ChangesOnly r2 f2 b2 s t :=
  ⟨fun r k => h.regs r (mt (hr r) k), fun g k => h.flags g (mt (hf g) k), fun a k => h.bytes a (mt (hb a) k),
    h.armed, h.pending, h.runState, h.memMap, h.policies, h.inputs⟩

/-- An index register written. -/
theorem ChangesOnly.setIndex (s : State) (r : IndexReg) (v : Word) :
    ChangesOnly [r.name] [] [] s (s.setIndex r v) := by
  refine ⟨fun k hk => ?_, fun g _ => by simp, fun a _ => State.byteAt_congr (by simp) a, ?_, ?_, ?_, ?_, ?_, ?_⟩
  · cases r <;> cases k <;> simp_all [IndexReg.name, State.reg, State.setIndex]
  all_goals simp

/-! ## Operations that write flags alone -/

/-- From `s` to `t` nothing but CC and the draws may differ. -/
structure FlagsOnly (s t : State) : Prop where
  a : t.a = s.a
  b : t.b = s.b
  x : t.x = s.x
  y : t.y = s.y
  userPtr : t.u = s.u
  sysPtr : t.s = s.s
  pc : t.pc = s.pc
  dp : t.dp = s.dp
  mem : t.mem = s.mem
  memMap : t.memMap = s.memMap
  inputs : t.inputs = s.inputs
  policies : t.policies = s.policies
  deviceLog : t.deviceLog = s.deviceLog
  armed : t.nmiArmed = s.nmiArmed
  pending : t.nmiPending = s.nmiPending
  runState : t.runState = s.runState

theorem FlagsOnly.refl (s : State) : FlagsOnly s s := by constructor <;> rfl

theorem FlagsOnly.trans {s t v : State} (h1 : FlagsOnly s t) (h2 : FlagsOnly t v) : FlagsOnly s v :=
  ⟨h2.a.trans h1.a, h2.b.trans h1.b, h2.x.trans h1.x, h2.y.trans h1.y, h2.userPtr.trans h1.userPtr, h2.sysPtr.trans h1.sysPtr,
    h2.pc.trans h1.pc, h2.dp.trans h1.dp, h2.mem.trans h1.mem, h2.memMap.trans h1.memMap,
    h2.inputs.trans h1.inputs, h2.policies.trans h1.policies, h2.deviceLog.trans h1.deviceLog, h2.armed.trans h1.armed, h2.pending.trans h1.pending,
    h2.runState.trans h1.runState⟩

theorem FlagsOnly.reg {s t : State} (h : FlagsOnly s t) (r : RegName) : t.reg r = s.reg r := by
  cases r <;> simp [State.reg, h.a, h.b, h.x, h.y, h.userPtr, h.sysPtr, h.pc, h.dp]

/-- The frame of an operation that writes the listed flags alone. -/
theorem FlagsOnly.changes {s t : State} (h : FlagsOnly s t) (regs : List RegName) {flags : List Flag}
    (bytes : List Word) (hf : ∀ g, g ∉ flags → t.flag g = s.flag g) : ChangesOnly regs flags bytes s t :=
  ⟨fun r _ => h.reg r, hf, fun q _ => State.byteAt_congr h.mem q, h.armed, h.pending, h.runState, h.memMap,
    h.policies, h.inputs⟩

theorem FlagsOnly.setFlag (s : State) (g : Flag) (q : Bool) : FlagsOnly s (s.setFlag g q) := by
  constructor <;> simp

theorem FlagsOnly.setNZ {w : Nat} (s : State) (v : BitVec w) : FlagsOnly s (s.setNZ v) := by
  constructor <;> simp

theorem FlagsOnly.setNZ0 {w : Nat} (s : State) (v : BitVec w) : FlagsOnly s (s.setNZ0 v) := by
  constructor <;> simp

theorem FlagsOnly.setNZVC {w : Nat} (s : State) (o : Alu w) : FlagsOnly s (s.setNZVC o) := by
  constructor <;> simp

theorem FlagsOnly.drawFlag (s : State) (g : Flag) (k : Config.OpenFlag) (cc : Byte) (p q : Word) :
    FlagsOnly s (s.drawFlag g k cc p q) := by
  constructor <;> simp

/-! The operations of Flags.lean, each with the flags it leaves alone. -/

theorem negate_only (v : Byte) (s : State) : FlagsOnly s (negate v s).2 := by
  constructor <;> simp [negate]

theorem negate_keeps (v : Byte) (s : State) (g : Flag) (hg : g ∉ [.h, .n, .z, .v, .c]) : (negate v s).2.flag g = s.flag g := by
  cases g <;> simp_all [negate]

theorem complement_only (v : Byte) (s : State) : FlagsOnly s (complement v s).2 := by
  constructor <;> simp [complement]

theorem complement_keeps (v : Byte) (s : State) (g : Flag) (hg : g ∉ [.n, .z, .v, .c]) : (complement v s).2.flag g = s.flag g := by
  cases g <;> simp_all [complement]

theorem increment_only (v : Byte) (s : State) : FlagsOnly s (increment v s).2 := by
  constructor <;> simp [increment]

theorem increment_keeps (v : Byte) (s : State) (g : Flag) (hg : g ∉ [.n, .z, .v]) : (increment v s).2.flag g = s.flag g := by
  cases g <;> simp_all [increment]

theorem decrement_only (v : Byte) (s : State) : FlagsOnly s (decrement v s).2 := by
  constructor <;> simp [decrement]

theorem decrement_keeps (v : Byte) (s : State) (g : Flag) (hg : g ∉ [.n, .z, .v]) : (decrement v s).2.flag g = s.flag g := by
  cases g <;> simp_all [decrement]

theorem shiftLeft_only (v : Byte) (s : State) : FlagsOnly s (shiftLeft v s).2 := by
  constructor <;> simp [shiftLeft]

theorem shiftLeft_keeps (v : Byte) (s : State) (g : Flag) (hg : g ∉ [.h, .n, .z, .v, .c]) : (shiftLeft v s).2.flag g = s.flag g := by
  cases g <;> simp_all [shiftLeft]

theorem shiftRightArith_only (v : Byte) (s : State) : FlagsOnly s (shiftRightArith v s).2 := by
  constructor <;> simp [shiftRightArith]

theorem shiftRightArith_keeps (v : Byte) (s : State) (g : Flag) (hg : g ∉ [.h, .n, .z, .v, .c]) : (shiftRightArith v s).2.flag g = s.flag g := by
  cases g <;> simp_all [shiftRightArith]

theorem shiftRight_only (v : Byte) (s : State) : FlagsOnly s (shiftRight v s).2 := by
  constructor <;> simp [shiftRight]

theorem shiftRight_keeps (v : Byte) (s : State) (g : Flag) (hg : g ∉ [.n, .z, .v, .c]) : (shiftRight v s).2.flag g = s.flag g := by
  cases g <;> simp_all [shiftRight]

theorem rotateLeft_only (v : Byte) (s : State) : FlagsOnly s (rotateLeft v s).2 := by
  constructor <;> simp [rotateLeft]

theorem rotateLeft_keeps (v : Byte) (s : State) (g : Flag) (hg : g ∉ [.n, .z, .v, .c]) : (rotateLeft v s).2.flag g = s.flag g := by
  cases g <;> simp_all [rotateLeft]

theorem rotateRight_only (v : Byte) (s : State) : FlagsOnly s (rotateRight v s).2 := by
  constructor <;> simp [rotateRight]

theorem rotateRight_keeps (v : Byte) (s : State) (g : Flag) (hg : g ∉ [.n, .z, .v, .c]) : (rotateRight v s).2.flag g = s.flag g := by
  cases g <;> simp_all [rotateRight]

theorem decimalAdjust_only (v : Byte) (s : State) : FlagsOnly s (decimalAdjust v s).2 := by
  constructor <;> simp [decimalAdjust]

theorem decimalAdjust_keeps (v : Byte) (s : State) (g : Flag) (hg : g ∉ [.n, .z, .v, .c]) : (decimalAdjust v s).2.flag g = s.flag g := by
  cases g <;> simp_all [decimalAdjust]

theorem addWithCarry_only (a v : Byte) (s : State) : FlagsOnly s (addWithCarry a v s).2 := by
  constructor <;> simp [addWithCarry]

theorem addWithCarry_keeps (a v : Byte) (s : State) (g : Flag) (hg : g ∉ [.h, .n, .z, .v, .c]) : (addWithCarry a v s).2.flag g = s.flag g := by
  cases g <;> simp_all [addWithCarry]

theorem addNoCarry_only (a v : Byte) (s : State) : FlagsOnly s (addNoCarry a v s).2 := by
  constructor <;> simp [addNoCarry]

theorem addNoCarry_keeps (a v : Byte) (s : State) (g : Flag) (hg : g ∉ [.h, .n, .z, .v, .c]) : (addNoCarry a v s).2.flag g = s.flag g := by
  cases g <;> simp_all [addNoCarry]

theorem subtract_only (a v : Byte) (s : State) : FlagsOnly s (subtract a v s).2 := by
  constructor <;> simp [subtract]

theorem subtract_keeps (a v : Byte) (s : State) (g : Flag) (hg : g ∉ [.h, .n, .z, .v, .c]) : (subtract a v s).2.flag g = s.flag g := by
  cases g <;> simp_all [subtract]

theorem subtractWithCarry_only (a v : Byte) (s : State) : FlagsOnly s (subtractWithCarry a v s).2 := by
  constructor <;> simp [subtractWithCarry]

theorem subtractWithCarry_keeps (a v : Byte) (s : State) (g : Flag) (hg : g ∉ [.h, .n, .z, .v, .c]) : (subtractWithCarry a v s).2.flag g = s.flag g := by
  cases g <;> simp_all [subtractWithCarry]

theorem andByte_only (a v : Byte) (s : State) : FlagsOnly s (andByte a v s).2 := by
  constructor <;> simp [andByte]

theorem andByte_keeps (a v : Byte) (s : State) (g : Flag) (hg : g ∉ [.n, .z, .v]) : (andByte a v s).2.flag g = s.flag g := by
  cases g <;> simp_all [andByte]

theorem orByte_only (a v : Byte) (s : State) : FlagsOnly s (orByte a v s).2 := by
  constructor <;> simp [orByte]

theorem orByte_keeps (a v : Byte) (s : State) (g : Flag) (hg : g ∉ [.n, .z, .v]) : (orByte a v s).2.flag g = s.flag g := by
  cases g <;> simp_all [orByte]

theorem xorByte_only (a v : Byte) (s : State) : FlagsOnly s (xorByte a v s).2 := by
  constructor <;> simp [xorByte]

theorem xorByte_keeps (a v : Byte) (s : State) (g : Flag) (hg : g ∉ [.n, .z, .v]) : (xorByte a v s).2.flag g = s.flag g := by
  cases g <;> simp_all [xorByte]

theorem loadByte_only (a v : Byte) (s : State) : FlagsOnly s (loadByte a v s).2 := by
  constructor <;> simp [loadByte]

theorem loadByte_keeps (a v : Byte) (s : State) (g : Flag) (hg : g ∉ [.n, .z, .v]) : (loadByte a v s).2.flag g = s.flag g := by
  cases g <;> simp_all [loadByte]

theorem addWord_only (a v : Word) (s : State) : FlagsOnly s (addWord a v s).2 := by
  constructor <;> simp [addWord]

theorem addWord_keeps (a v : Word) (s : State) (g : Flag) (hg : g ∉ [.h, .n, .z, .v, .c]) : (addWord a v s).2.flag g = s.flag g := by
  cases g <;> simp_all [addWord]

theorem subtractWord_only (a v : Word) (s : State) : FlagsOnly s (subtractWord a v s).2 := by
  constructor <;> simp [subtractWord]

theorem subtractWord_keeps (a v : Word) (s : State) (g : Flag) (hg : g ∉ [.n, .z, .v, .c]) : (subtractWord a v s).2.flag g = s.flag g := by
  cases g <;> simp_all [subtractWord]

theorem loadWord_only (a v : Word) (s : State) : FlagsOnly s (loadWord a v s).2 := by
  constructor <;> simp [loadWord]

theorem loadWord_keeps (a v : Word) (s : State) (g : Flag) (hg : g ∉ [.n, .z, .v]) : (loadWord a v s).2.flag g = s.flag g := by
  cases g <;> simp_all [loadWord]

/-! ## A register written -/

theorem ChangesOnly.set16 (s : State) (r : Reg16) (v : Word) : ChangesOnly r.names [] [] s (s.set16 r v) := by
  refine ⟨fun k hk => ?_, fun g _ => by simp, fun q _ => State.byteAt_congr (by simp) q, ?_, ?_, ?_, ?_, ?_, ?_⟩
  · cases r <;> cases k <;> simp_all [Reg16.names, State.reg, State.set16]
  all_goals simp

theorem ChangesOnly.set8 (s : State) (r : Reg8) (v : Byte) :
    ChangesOnly r.names (if r = .cc then allFlags else []) [] s (s.set8 r v) := by
  refine ⟨fun k hk => ?_, fun g hg => ?_, fun q _ => State.byteAt_congr (by cases r <;> rfl) q, ?_, ?_, ?_, ?_, ?_, ?_⟩
  · cases r <;> cases k <;> simp_all [Reg8.names, State.reg, State.set8]
  · cases r <;> cases g <;> simp_all [State.set8, allFlags, State.flag]
  all_goals cases r <;> rfl

/-! ## Addresses -/

/-- Another list of device accesses is no change that a frame sees. -/
theorem ChangesOnly.withLog {regs : List RegName} {flags : List Flag} {bytes : List Word} {s t : State}
    (h : ChangesOnly regs flags bytes s t) (log : List Config.DeviceAccess) :
    ChangesOnly regs flags bytes s (t.withLog log) :=
  ⟨h.regs, h.flags, h.bytes, h.armed, h.pending, h.runState, h.memMap, h.policies, h.inputs⟩

/-- A form's address computation leaves the state, or writes the index register its form updates (R148 to R156). -/
theorem formAddress_state (r : IndexReg) (f : IndexForm) (ind : Bool) (s : State) :
    (formAddress r f s).2 = s ∨
      ∃ v, (formAddress r f s).2 = s.setIndex r v ∧ updatesIndexed (.form r f ind) = [r.name] := by
  cases f with
  | postInc1 => exact .inr ⟨_, rfl, rfl⟩
  | postInc2 => exact .inr ⟨_, rfl, rfl⟩
  | preDec1 => exact .inr ⟨_, rfl, rfl⟩
  | preDec2 => exact .inr ⟨_, rfl, rfl⟩
  | _ => exact .inl rfl

/-- Indirection reads, and changes nothing but the accesses that reached a device (R160). -/
theorem indirect_state {ind : Bool} {ea1 ea : Word} {s t : State} (h : indirect ind ea1 s = .next (ea, t)) :
    ∃ log, t = s.withLog log := by
  unfold indirect at h
  split at h
  · exact read16_state h
  · cases h
    exact ⟨_, rfl⟩

/-- The state after an operand's address was computed: the same but for the accesses that reached a device, or with
the index register that updates written. -/
def Addressed (upd : List RegName) (s t : State) : Prop :=
  ∃ log, t = s.withLog log ∨ ∃ r v, t = (s.setIndex r v).withLog log ∧ upd = [r.name]

theorem Addressed.refl (upd : List RegName) (s : State) : Addressed upd s s := ⟨_, .inl rfl⟩

theorem Addressed.withLog {upd : List RegName} {s t : State} (h : Addressed upd s t)
    (log : List Config.DeviceAccess) : Addressed upd s (t.withLog log) := by
  obtain ⟨_, rfl | ⟨r, v, rfl, hu⟩⟩ := h
  · exact ⟨log, .inl rfl⟩
  · exact ⟨log, .inr ⟨r, v, rfl, hu⟩⟩

/-- The frame of computing an address: the register that updates. -/
theorem Addressed.changes {upd : List RegName} {s t : State} (h : Addressed upd s t) : ChangesOnly upd [] [] s t := by
  obtain ⟨log, rfl | ⟨r, v, rfl, rfl⟩⟩ := h
  · exact (ChangesOnly.refl _ _ _ s).withLog log
  · exact (ChangesOnly.setIndex s r v).withLog log

/-- Computing an indexed address (R145 to R161). -/
theorem indexedAddress_state {p : Indexed} {s t : State} {ea : Word} (h : indexedAddress p s = .next (ea, t)) :
    Addressed (updatesIndexed p) s t := by
  cases p with
  | off5 r n =>
    cases h
    exact .refl _ _
  | form r f ind =>
    simp only [indexedAddress] at h
    split at h
    · cases h
    · obtain ⟨log, rfl⟩ := indirect_state h
      rcases formAddress_state r f ind s with h1 | ⟨v, h1, h2⟩
      · exact ⟨log, .inl (by rw [h1])⟩
      · exact ⟨log, .inr ⟨r, v, by rw [h1], h2⟩⟩
  | pcr8 n ind => exact (indirect_state h).imp fun _ => .inl
  | pcr16 nn ind => exact (indirect_state h).imp fun _ => .inl
  | extInd nn => exact (indirect_state h).imp fun _ => .inl

/-- Computing an operand's address (R140). -/
theorem effectiveAddress_state {m : Mem} {s t : State} {ea : Word} (h : effectiveAddress m s = .next (ea, t)) :
    Addressed (updatesMem m) s t := by
  cases m with
  | direct n =>
    cases h
    exact .refl _ _
  | extended nn =>
    cases h
    exact .refl _ _
  | indexed p => exact indexedAddress_state h

/-- An 8-bit source: an immediate, or the byte read at an address (R140, R142). -/
theorem source8_eq_next {acc : Config.Access} {src : Src8} {s t : State} {v : Byte} :
    source8 acc src s = .next (v, t) ↔
      (src = .imm v ∧ t = s) ∨
        ∃ m ea u, src = .mem m ∧ effectiveAddress m s = .next (ea, u) ∧ read8 acc ea u = .next (v, t) := by
  cases src <;> simp [source8, Result.andThen_eq_next, eq_comm (a := t)]

/-- A 16-bit source: an immediate, or the word read at an address (R140, R142). -/
theorem source16_eq_next {acc : Config.Access} {src : Src16} {s t : State} {v : Word} :
    source16 acc src s = .next (v, t) ↔
      (src = .imm v ∧ t = s) ∨
        ∃ m ea u, src = .mem m ∧ effectiveAddress m s = .next (ea, u) ∧ read16 acc ea u = .next (v, t) := by
  cases src <;> simp [source16, Result.andThen_eq_next, eq_comm (a := t)]

/-- Reading an 8-bit source changes the register that updates. -/
theorem source8_state {acc : Config.Access} {src : Src8} {s t : State} {v : Byte}
    (h : source8 acc src s = .next (v, t)) : Addressed (updates8 src) s t := by
  rcases source8_eq_next.1 h with ⟨rfl, rfl⟩ | ⟨m, ea, u, rfl, h1, h2⟩
  · exact .refl _ _
  · obtain ⟨log, rfl⟩ := read8_state h2
    exact (effectiveAddress_state h1).withLog log

/-- Reading a 16-bit source changes the register that updates. -/
theorem source16_state {acc : Config.Access} {src : Src16} {s t : State} {v : Word}
    (h : source16 acc src s = .next (v, t)) : Addressed (updates16 src) s t := by
  rcases source16_eq_next.1 h with ⟨rfl, rfl⟩ | ⟨m, ea, u, rfl, h1, h2⟩
  · exact .refl _ _
  · obtain ⟨log, rfl⟩ := read16_state h2
    exact (effectiveAddress_state h1).withLog log

end Sys2Proof.Machine
end

