-- ==== Sys2Proof/Laws/Fetch.lean ====
section
/-! SUPPORT. Bytes placed in memory one after the other. -/

namespace Sys2Proof.Machine

@[simp] theorem pokeBytes_memMap (bs : List Byte) (addr : Word) (s : State) :
    (pokeBytes addr bs s).memMap = s.memMap := by
  induction bs generalizing addr s with
  | nil => rfl
  | cons b rest ih => simp [pokeBytes, ih]

/-- Addresses outside the block are left alone. -/
theorem byteAt_pokeBytes_outside {bs : List Byte} {addr q : Word} (s : State)
    (h : ∀ k < bs.length, q ≠ addr + BitVec.ofNat 16 k) : (pokeBytes addr bs s).byteAt q = s.byteAt q := by
  induction bs generalizing addr s with
  | nil => rfl
  | cons b rest ih =>
    rw [pokeBytes, ih]
    · rw [State.byteAt_poke, if_neg]
      simpa using h 0 (by simp)
    · intro k hk
      have := h (k + 1) (by simpa using hk)
      rwa [show BitVec.ofNat 16 (k + 1) = 1#16 + BitVec.ofNat 16 k by
        rw [Nat.add_comm, BitVec.ofNat_add], ← BitVec.add_assoc] at this

/-- A block of at most 65536 bytes lies where it was placed. -/
theorem byteAt_pokeBytes_inside {bs : List Byte} {addr : Word} (s : State) (hl : bs.length ≤ 65536) {k : Nat}
    {v : Byte} (h : bs[k]? = some v) : (pokeBytes addr bs s).byteAt (addr + BitVec.ofNat 16 k) = some v := by
  induction bs generalizing addr s k with
  | nil => simp at h
  | cons b rest ih =>
    have hl' : rest.length < 65536 := by simpa using hl
    rw [pokeBytes]
    cases k with
    | zero =>
      obtain rfl : b = v := by simpa using h
      rw [byteAt_pokeBytes_outside]
      · simp
      · intro j hj he
        have := congrArg BitVec.toNat he
        simp only [BitVec.toNat_add, BitVec.toNat_ofNat] at this
        have := addr.isLt
        omega
    | succ k =>
      rw [show BitVec.ofNat 16 (k + 1) = 1#16 + BitVec.ofNat 16 k by
        rw [Nat.add_comm, BitVec.ofNat_add], ← BitVec.add_assoc]
      exact ih _ hl'.le (by simpa using h)

end Sys2Proof.Machine
end

