-- ==== Sys2Proof/Laws/PerInstr.lean ====
section
/-! SUPPORT. Statements about every instruction as syntax, one lemma per constructor. -/

namespace Sys2Proof.Laws

theorem indexed_bytes_length (p : Indexed) : 1 ≤ p.bytes.length ∧ p.bytes.length ≤ 3 := by
  cases p with
  | form r f ind => cases f <;> simp [Indexed.bytes, IndexForm.offsetBytes]
  | off5 r n => simp [Indexed.bytes]
  | pcr8 n ind => simp [Indexed.bytes]
  | pcr16 nn ind => simp [Indexed.bytes]
  | extInd nn => simp [Indexed.bytes]

theorem mem_encode_length (d i e : Byte) (m : Mem) : 1 ≤ (m.encode d i e).length ∧ (m.encode d i e).length ≤ 4 := by
  cases m with
  | direct n => simp [Mem.encode]
  | extended nn => simp [Mem.encode]
  | indexed p => have := indexed_bytes_length p; simp only [Mem.encode, List.length_cons]; omega

theorem src8_encode_length (j d i e : Byte) (src : Src8) :
    1 ≤ (src.encode j d i e).length ∧ (src.encode j d i e).length ≤ 4 := by
  cases src with
  | imm n => simp [Src8.encode]
  | mem m => exact mem_encode_length d i e m

theorem src16_encode_length (j d i e : Byte) (src : Src16) :
    1 ≤ (src.encode j d i e).length ∧ (src.encode j d i e).length ≤ 4 := by
  cases src with
  | imm n => simp [Src16.encode]
  | mem m => exact mem_encode_length d i e m

namespace EncodeLength

/-- An instruction has 1 to 5 bytes (R90, R110). -/
def Statement (i : Instr) : Prop := 1 ≤ (encode i).length ∧ (encode i).length ≤ 5

/-- Room for a prefix byte. -/
theorem behind_prefix {b : Byte} {l : List Byte} (h : 1 ≤ l.length ∧ l.length ≤ 4) :
    1 ≤ (b :: l).length ∧ (b :: l).length ≤ 5 := by
  simp only [List.length_cons]; omega

theorem without_prefix {l : List Byte} (h : 1 ≤ l.length ∧ l.length ≤ 4) : 1 ≤ l.length ∧ l.length ≤ 5 := by
  omega

/-- An opcode before an indexed operand. -/
theorem before_indexed {b : Byte} (p : Indexed) : 1 ≤ (b :: p.bytes).length ∧ (b :: p.bytes).length ≤ 5 := by
  have := indexed_bytes_length p
  simp only [List.length_cons]; omega

theorem abx : Statement (.abx) := ⟨Nat.le_of_ble_eq_true rfl, Nat.le_of_ble_eq_true rfl⟩
theorem adca (src : Src8) : Statement (.adca src) := without_prefix (src8_encode_length _ _ _ _ src)
theorem adcb (src : Src8) : Statement (.adcb src) := without_prefix (src8_encode_length _ _ _ _ src)
theorem adda (src : Src8) : Statement (.adda src) := without_prefix (src8_encode_length _ _ _ _ src)
theorem addb (src : Src8) : Statement (.addb src) := without_prefix (src8_encode_length _ _ _ _ src)
theorem addd (src : Src16) : Statement (.addd src) := without_prefix (src16_encode_length _ _ _ _ src)
theorem clr (m : Mem) : Statement (.clr m) := without_prefix (mem_encode_length _ _ _ m)
theorem clra : Statement (.clra) := ⟨Nat.le_of_ble_eq_true rfl, Nat.le_of_ble_eq_true rfl⟩
theorem clrb : Statement (.clrb) := ⟨Nat.le_of_ble_eq_true rfl, Nat.le_of_ble_eq_true rfl⟩
theorem cmpa (src : Src8) : Statement (.cmpa src) := without_prefix (src8_encode_length _ _ _ _ src)
theorem cmpb (src : Src8) : Statement (.cmpb src) := without_prefix (src8_encode_length _ _ _ _ src)
theorem cmpd (src : Src16) : Statement (.cmpd src) := behind_prefix (src16_encode_length _ _ _ _ src)
theorem cmps (src : Src16) : Statement (.cmps src) := behind_prefix (src16_encode_length _ _ _ _ src)
theorem cmpu (src : Src16) : Statement (.cmpu src) := behind_prefix (src16_encode_length _ _ _ _ src)
theorem cmpx (src : Src16) : Statement (.cmpx src) := without_prefix (src16_encode_length _ _ _ _ src)
theorem cmpy (src : Src16) : Statement (.cmpy src) := behind_prefix (src16_encode_length _ _ _ _ src)
theorem daa : Statement (.daa) := ⟨Nat.le_of_ble_eq_true rfl, Nat.le_of_ble_eq_true rfl⟩
theorem dec (m : Mem) : Statement (.dec m) := without_prefix (mem_encode_length _ _ _ m)
theorem deca : Statement (.deca) := ⟨Nat.le_of_ble_eq_true rfl, Nat.le_of_ble_eq_true rfl⟩
theorem decb : Statement (.decb) := ⟨Nat.le_of_ble_eq_true rfl, Nat.le_of_ble_eq_true rfl⟩
theorem inc (m : Mem) : Statement (.inc m) := without_prefix (mem_encode_length _ _ _ m)
theorem inca : Statement (.inca) := ⟨Nat.le_of_ble_eq_true rfl, Nat.le_of_ble_eq_true rfl⟩
theorem incb : Statement (.incb) := ⟨Nat.le_of_ble_eq_true rfl, Nat.le_of_ble_eq_true rfl⟩
theorem mul : Statement (.mul) := ⟨Nat.le_of_ble_eq_true rfl, Nat.le_of_ble_eq_true rfl⟩
theorem neg (m : Mem) : Statement (.neg m) := without_prefix (mem_encode_length _ _ _ m)
theorem nega : Statement (.nega) := ⟨Nat.le_of_ble_eq_true rfl, Nat.le_of_ble_eq_true rfl⟩
theorem negb : Statement (.negb) := ⟨Nat.le_of_ble_eq_true rfl, Nat.le_of_ble_eq_true rfl⟩
theorem sbca (src : Src8) : Statement (.sbca src) := without_prefix (src8_encode_length _ _ _ _ src)
theorem sbcb (src : Src8) : Statement (.sbcb src) := without_prefix (src8_encode_length _ _ _ _ src)
theorem sex : Statement (.sex) := ⟨Nat.le_of_ble_eq_true rfl, Nat.le_of_ble_eq_true rfl⟩
theorem suba (src : Src8) : Statement (.suba src) := without_prefix (src8_encode_length _ _ _ _ src)
theorem subb (src : Src8) : Statement (.subb src) := without_prefix (src8_encode_length _ _ _ _ src)
theorem subd (src : Src16) : Statement (.subd src) := without_prefix (src16_encode_length _ _ _ _ src)
theorem tst (m : Mem) : Statement (.tst m) := without_prefix (mem_encode_length _ _ _ m)
theorem tsta : Statement (.tsta) := ⟨Nat.le_of_ble_eq_true rfl, Nat.le_of_ble_eq_true rfl⟩
theorem tstb : Statement (.tstb) := ⟨Nat.le_of_ble_eq_true rfl, Nat.le_of_ble_eq_true rfl⟩
theorem anda (src : Src8) : Statement (.anda src) := without_prefix (src8_encode_length _ _ _ _ src)
theorem andb (src : Src8) : Statement (.andb src) := without_prefix (src8_encode_length _ _ _ _ src)
theorem andcc (n : Byte) : Statement (.andcc n) := ⟨Nat.le_of_ble_eq_true rfl, Nat.le_of_ble_eq_true rfl⟩
theorem asl (m : Mem) : Statement (.asl m) := without_prefix (mem_encode_length _ _ _ m)
theorem asla : Statement (.asla) := ⟨Nat.le_of_ble_eq_true rfl, Nat.le_of_ble_eq_true rfl⟩
theorem aslb : Statement (.aslb) := ⟨Nat.le_of_ble_eq_true rfl, Nat.le_of_ble_eq_true rfl⟩
theorem asr (m : Mem) : Statement (.asr m) := without_prefix (mem_encode_length _ _ _ m)
theorem asra : Statement (.asra) := ⟨Nat.le_of_ble_eq_true rfl, Nat.le_of_ble_eq_true rfl⟩
theorem asrb : Statement (.asrb) := ⟨Nat.le_of_ble_eq_true rfl, Nat.le_of_ble_eq_true rfl⟩
theorem bita (src : Src8) : Statement (.bita src) := without_prefix (src8_encode_length _ _ _ _ src)
theorem bitb (src : Src8) : Statement (.bitb src) := without_prefix (src8_encode_length _ _ _ _ src)
theorem com (m : Mem) : Statement (.com m) := without_prefix (mem_encode_length _ _ _ m)
theorem coma : Statement (.coma) := ⟨Nat.le_of_ble_eq_true rfl, Nat.le_of_ble_eq_true rfl⟩
theorem comb : Statement (.comb) := ⟨Nat.le_of_ble_eq_true rfl, Nat.le_of_ble_eq_true rfl⟩
theorem eora (src : Src8) : Statement (.eora src) := without_prefix (src8_encode_length _ _ _ _ src)
theorem eorb (src : Src8) : Statement (.eorb src) := without_prefix (src8_encode_length _ _ _ _ src)
theorem lsl (m : Mem) : Statement (.lsl m) := without_prefix (mem_encode_length _ _ _ m)
theorem lsla : Statement (.lsla) := ⟨Nat.le_of_ble_eq_true rfl, Nat.le_of_ble_eq_true rfl⟩
theorem lslb : Statement (.lslb) := ⟨Nat.le_of_ble_eq_true rfl, Nat.le_of_ble_eq_true rfl⟩
theorem lsr (m : Mem) : Statement (.lsr m) := without_prefix (mem_encode_length _ _ _ m)
theorem lsra : Statement (.lsra) := ⟨Nat.le_of_ble_eq_true rfl, Nat.le_of_ble_eq_true rfl⟩
theorem lsrb : Statement (.lsrb) := ⟨Nat.le_of_ble_eq_true rfl, Nat.le_of_ble_eq_true rfl⟩
theorem ora (src : Src8) : Statement (.ora src) := without_prefix (src8_encode_length _ _ _ _ src)
theorem orb (src : Src8) : Statement (.orb src) := without_prefix (src8_encode_length _ _ _ _ src)
theorem orcc (n : Byte) : Statement (.orcc n) := ⟨Nat.le_of_ble_eq_true rfl, Nat.le_of_ble_eq_true rfl⟩
theorem rol (m : Mem) : Statement (.rol m) := without_prefix (mem_encode_length _ _ _ m)
theorem rola : Statement (.rola) := ⟨Nat.le_of_ble_eq_true rfl, Nat.le_of_ble_eq_true rfl⟩
theorem rolb : Statement (.rolb) := ⟨Nat.le_of_ble_eq_true rfl, Nat.le_of_ble_eq_true rfl⟩
theorem ror (m : Mem) : Statement (.ror m) := without_prefix (mem_encode_length _ _ _ m)
theorem rora : Statement (.rora) := ⟨Nat.le_of_ble_eq_true rfl, Nat.le_of_ble_eq_true rfl⟩
theorem rorb : Statement (.rorb) := ⟨Nat.le_of_ble_eq_true rfl, Nat.le_of_ble_eq_true rfl⟩
theorem lda (src : Src8) : Statement (.lda src) := without_prefix (src8_encode_length _ _ _ _ src)
theorem ldb (src : Src8) : Statement (.ldb src) := without_prefix (src8_encode_length _ _ _ _ src)
theorem ldd (src : Src16) : Statement (.ldd src) := without_prefix (src16_encode_length _ _ _ _ src)
theorem lds (src : Src16) : Statement (.lds src) := behind_prefix (src16_encode_length _ _ _ _ src)
theorem ldu (src : Src16) : Statement (.ldu src) := without_prefix (src16_encode_length _ _ _ _ src)
theorem ldx (src : Src16) : Statement (.ldx src) := without_prefix (src16_encode_length _ _ _ _ src)
theorem ldy (src : Src16) : Statement (.ldy src) := behind_prefix (src16_encode_length _ _ _ _ src)
theorem leax (p : Indexed) : Statement (.leax p) := before_indexed p
theorem leay (p : Indexed) : Statement (.leay p) := before_indexed p
theorem leas (p : Indexed) : Statement (.leas p) := before_indexed p
theorem leau (p : Indexed) : Statement (.leau p) := before_indexed p
theorem sta (m : Mem) : Statement (.sta m) := without_prefix (mem_encode_length _ _ _ m)
theorem stb (m : Mem) : Statement (.stb m) := without_prefix (mem_encode_length _ _ _ m)
theorem std (m : Mem) : Statement (.std m) := without_prefix (mem_encode_length _ _ _ m)
theorem sts (m : Mem) : Statement (.sts m) := behind_prefix (mem_encode_length _ _ _ m)
theorem stu (m : Mem) : Statement (.stu m) := without_prefix (mem_encode_length _ _ _ m)
theorem stx (m : Mem) : Statement (.stx m) := without_prefix (mem_encode_length _ _ _ m)
theorem sty (m : Mem) : Statement (.sty m) := behind_prefix (mem_encode_length _ _ _ m)
theorem tfr (r1 r2 : AnyReg) : Statement (.tfr r1 r2) := ⟨Nat.le_of_ble_eq_true rfl, Nat.le_of_ble_eq_true rfl⟩
theorem exg (r1 r2 : AnyReg) : Statement (.exg r1 r2) := ⟨Nat.le_of_ble_eq_true rfl, Nat.le_of_ble_eq_true rfl⟩
theorem pshs (mask : Byte) : Statement (.pshs mask) := ⟨Nat.le_of_ble_eq_true rfl, Nat.le_of_ble_eq_true rfl⟩
theorem pshu (mask : Byte) : Statement (.pshu mask) := ⟨Nat.le_of_ble_eq_true rfl, Nat.le_of_ble_eq_true rfl⟩
theorem puls (mask : Byte) : Statement (.puls mask) := ⟨Nat.le_of_ble_eq_true rfl, Nat.le_of_ble_eq_true rfl⟩
theorem pulu (mask : Byte) : Statement (.pulu mask) := ⟨Nat.le_of_ble_eq_true rfl, Nat.le_of_ble_eq_true rfl⟩
theorem bcc (off : Byte) : Statement (.bcc off) := ⟨Nat.le_of_ble_eq_true rfl, Nat.le_of_ble_eq_true rfl⟩
theorem bcs (off : Byte) : Statement (.bcs off) := ⟨Nat.le_of_ble_eq_true rfl, Nat.le_of_ble_eq_true rfl⟩
theorem beq (off : Byte) : Statement (.beq off) := ⟨Nat.le_of_ble_eq_true rfl, Nat.le_of_ble_eq_true rfl⟩
theorem bge (off : Byte) : Statement (.bge off) := ⟨Nat.le_of_ble_eq_true rfl, Nat.le_of_ble_eq_true rfl⟩
theorem bgt (off : Byte) : Statement (.bgt off) := ⟨Nat.le_of_ble_eq_true rfl, Nat.le_of_ble_eq_true rfl⟩
theorem bhi (off : Byte) : Statement (.bhi off) := ⟨Nat.le_of_ble_eq_true rfl, Nat.le_of_ble_eq_true rfl⟩
theorem bhs (off : Byte) : Statement (.bhs off) := ⟨Nat.le_of_ble_eq_true rfl, Nat.le_of_ble_eq_true rfl⟩
theorem ble (off : Byte) : Statement (.ble off) := ⟨Nat.le_of_ble_eq_true rfl, Nat.le_of_ble_eq_true rfl⟩
theorem blo (off : Byte) : Statement (.blo off) := ⟨Nat.le_of_ble_eq_true rfl, Nat.le_of_ble_eq_true rfl⟩
theorem bls (off : Byte) : Statement (.bls off) := ⟨Nat.le_of_ble_eq_true rfl, Nat.le_of_ble_eq_true rfl⟩
theorem blt (off : Byte) : Statement (.blt off) := ⟨Nat.le_of_ble_eq_true rfl, Nat.le_of_ble_eq_true rfl⟩
theorem bmi (off : Byte) : Statement (.bmi off) := ⟨Nat.le_of_ble_eq_true rfl, Nat.le_of_ble_eq_true rfl⟩
theorem bne (off : Byte) : Statement (.bne off) := ⟨Nat.le_of_ble_eq_true rfl, Nat.le_of_ble_eq_true rfl⟩
theorem bpl (off : Byte) : Statement (.bpl off) := ⟨Nat.le_of_ble_eq_true rfl, Nat.le_of_ble_eq_true rfl⟩
theorem bra (off : Byte) : Statement (.bra off) := ⟨Nat.le_of_ble_eq_true rfl, Nat.le_of_ble_eq_true rfl⟩
theorem brn (off : Byte) : Statement (.brn off) := ⟨Nat.le_of_ble_eq_true rfl, Nat.le_of_ble_eq_true rfl⟩
theorem bsr (off : Byte) : Statement (.bsr off) := ⟨Nat.le_of_ble_eq_true rfl, Nat.le_of_ble_eq_true rfl⟩
theorem bvc (off : Byte) : Statement (.bvc off) := ⟨Nat.le_of_ble_eq_true rfl, Nat.le_of_ble_eq_true rfl⟩
theorem bvs (off : Byte) : Statement (.bvs off) := ⟨Nat.le_of_ble_eq_true rfl, Nat.le_of_ble_eq_true rfl⟩
theorem jmp (m : Mem) : Statement (.jmp m) := without_prefix (mem_encode_length _ _ _ m)
theorem jsr (m : Mem) : Statement (.jsr m) := without_prefix (mem_encode_length _ _ _ m)
theorem lbrn (off : Word) : Statement (.lbrn off) := ⟨Nat.le_of_ble_eq_true rfl, Nat.le_of_ble_eq_true rfl⟩
theorem lbhi (off : Word) : Statement (.lbhi off) := ⟨Nat.le_of_ble_eq_true rfl, Nat.le_of_ble_eq_true rfl⟩
theorem lbls (off : Word) : Statement (.lbls off) := ⟨Nat.le_of_ble_eq_true rfl, Nat.le_of_ble_eq_true rfl⟩
theorem lbcc (off : Word) : Statement (.lbcc off) := ⟨Nat.le_of_ble_eq_true rfl, Nat.le_of_ble_eq_true rfl⟩
theorem lbhs (off : Word) : Statement (.lbhs off) := ⟨Nat.le_of_ble_eq_true rfl, Nat.le_of_ble_eq_true rfl⟩
theorem lbcs (off : Word) : Statement (.lbcs off) := ⟨Nat.le_of_ble_eq_true rfl, Nat.le_of_ble_eq_true rfl⟩
theorem lblo (off : Word) : Statement (.lblo off) := ⟨Nat.le_of_ble_eq_true rfl, Nat.le_of_ble_eq_true rfl⟩
theorem lbne (off : Word) : Statement (.lbne off) := ⟨Nat.le_of_ble_eq_true rfl, Nat.le_of_ble_eq_true rfl⟩
theorem lbeq (off : Word) : Statement (.lbeq off) := ⟨Nat.le_of_ble_eq_true rfl, Nat.le_of_ble_eq_true rfl⟩
theorem lbvc (off : Word) : Statement (.lbvc off) := ⟨Nat.le_of_ble_eq_true rfl, Nat.le_of_ble_eq_true rfl⟩
theorem lbvs (off : Word) : Statement (.lbvs off) := ⟨Nat.le_of_ble_eq_true rfl, Nat.le_of_ble_eq_true rfl⟩
theorem lbpl (off : Word) : Statement (.lbpl off) := ⟨Nat.le_of_ble_eq_true rfl, Nat.le_of_ble_eq_true rfl⟩
theorem lbmi (off : Word) : Statement (.lbmi off) := ⟨Nat.le_of_ble_eq_true rfl, Nat.le_of_ble_eq_true rfl⟩
theorem lbge (off : Word) : Statement (.lbge off) := ⟨Nat.le_of_ble_eq_true rfl, Nat.le_of_ble_eq_true rfl⟩
theorem lblt (off : Word) : Statement (.lblt off) := ⟨Nat.le_of_ble_eq_true rfl, Nat.le_of_ble_eq_true rfl⟩
theorem lbgt (off : Word) : Statement (.lbgt off) := ⟨Nat.le_of_ble_eq_true rfl, Nat.le_of_ble_eq_true rfl⟩
theorem lble (off : Word) : Statement (.lble off) := ⟨Nat.le_of_ble_eq_true rfl, Nat.le_of_ble_eq_true rfl⟩
theorem lbra (off : Word) : Statement (.lbra off) := ⟨Nat.le_of_ble_eq_true rfl, Nat.le_of_ble_eq_true rfl⟩
theorem lbsr (off : Word) : Statement (.lbsr off) := ⟨Nat.le_of_ble_eq_true rfl, Nat.le_of_ble_eq_true rfl⟩
theorem nop : Statement (.nop) := ⟨Nat.le_of_ble_eq_true rfl, Nat.le_of_ble_eq_true rfl⟩
theorem rts : Statement (.rts) := ⟨Nat.le_of_ble_eq_true rfl, Nat.le_of_ble_eq_true rfl⟩
theorem swi : Statement (.swi) := ⟨Nat.le_of_ble_eq_true rfl, Nat.le_of_ble_eq_true rfl⟩
theorem swi2 : Statement (.swi2) := ⟨Nat.le_of_ble_eq_true rfl, Nat.le_of_ble_eq_true rfl⟩
theorem swi3 : Statement (.swi3) := ⟨Nat.le_of_ble_eq_true rfl, Nat.le_of_ble_eq_true rfl⟩
theorem rti : Statement (.rti) := ⟨Nat.le_of_ble_eq_true rfl, Nat.le_of_ble_eq_true rfl⟩
theorem cwai (n : Byte) : Statement (.cwai n) := ⟨Nat.le_of_ble_eq_true rfl, Nat.le_of_ble_eq_true rfl⟩
theorem sync : Statement (.sync) := ⟨Nat.le_of_ble_eq_true rfl, Nat.le_of_ble_eq_true rfl⟩

end EncodeLength

end Sys2Proof.Laws
end

