-- ==== Sys2Proof/Machine/Assembler.lean ====
section
/-! DEFINITION. The assembler's side of the spec (spec/30_encoding.md R118 to R120): the spelling of an
instruction, and the directives with the bytes they emit (log 32). No step uses it. -/

namespace Sys2Proof

/-- The mnemonic of an instruction (R118). -/
def Instr.mnemonic : Instr → String
  | .abx => "ABX"
  | .adca _ => "ADCA"
  | .adcb _ => "ADCB"
  | .adda _ => "ADDA"
  | .addb _ => "ADDB"
  | .addd _ => "ADDD"
  | .clr _ => "CLR"
  | .clra => "CLRA"
  | .clrb => "CLRB"
  | .cmpa _ => "CMPA"
  | .cmpb _ => "CMPB"
  | .cmpd _ => "CMPD"
  | .cmps _ => "CMPS"
  | .cmpu _ => "CMPU"
  | .cmpx _ => "CMPX"
  | .cmpy _ => "CMPY"
  | .daa => "DAA"
  | .dec _ => "DEC"
  | .deca => "DECA"
  | .decb => "DECB"
  | .inc _ => "INC"
  | .inca => "INCA"
  | .incb => "INCB"
  | .mul => "MUL"
  | .neg _ => "NEG"
  | .nega => "NEGA"
  | .negb => "NEGB"
  | .sbca _ => "SBCA"
  | .sbcb _ => "SBCB"
  | .sex => "SEX"
  | .suba _ => "SUBA"
  | .subb _ => "SUBB"
  | .subd _ => "SUBD"
  | .tst _ => "TST"
  | .tsta => "TSTA"
  | .tstb => "TSTB"
  | .anda _ => "ANDA"
  | .andb _ => "ANDB"
  | .andcc _ => "ANDCC"
  | .asl _ => "ASL"
  | .asla => "ASLA"
  | .aslb => "ASLB"
  | .asr _ => "ASR"
  | .asra => "ASRA"
  | .asrb => "ASRB"
  | .bita _ => "BITA"
  | .bitb _ => "BITB"
  | .com _ => "COM"
  | .coma => "COMA"
  | .comb => "COMB"
  | .eora _ => "EORA"
  | .eorb _ => "EORB"
  | .lsl _ => "LSL"
  | .lsla => "LSLA"
  | .lslb => "LSLB"
  | .lsr _ => "LSR"
  | .lsra => "LSRA"
  | .lsrb => "LSRB"
  | .ora _ => "ORA"
  | .orb _ => "ORB"
  | .orcc _ => "ORCC"
  | .rol _ => "ROL"
  | .rola => "ROLA"
  | .rolb => "ROLB"
  | .ror _ => "ROR"
  | .rora => "RORA"
  | .rorb => "RORB"
  | .lda _ => "LDA"
  | .ldb _ => "LDB"
  | .ldd _ => "LDD"
  | .lds _ => "LDS"
  | .ldu _ => "LDU"
  | .ldx _ => "LDX"
  | .ldy _ => "LDY"
  | .leax _ => "LEAX"
  | .leay _ => "LEAY"
  | .leas _ => "LEAS"
  | .leau _ => "LEAU"
  | .sta _ => "STA"
  | .stb _ => "STB"
  | .std _ => "STD"
  | .sts _ => "STS"
  | .stu _ => "STU"
  | .stx _ => "STX"
  | .sty _ => "STY"
  | .tfr _ _ => "TFR"
  | .exg _ _ => "EXG"
  | .pshs _ => "PSHS"
  | .pshu _ => "PSHU"
  | .puls _ => "PULS"
  | .pulu _ => "PULU"
  | .bcc _ => "BCC"
  | .bcs _ => "BCS"
  | .beq _ => "BEQ"
  | .bge _ => "BGE"
  | .bgt _ => "BGT"
  | .bhi _ => "BHI"
  | .bhs _ => "BHS"
  | .ble _ => "BLE"
  | .blo _ => "BLO"
  | .bls _ => "BLS"
  | .blt _ => "BLT"
  | .bmi _ => "BMI"
  | .bne _ => "BNE"
  | .bpl _ => "BPL"
  | .bra _ => "BRA"
  | .brn _ => "BRN"
  | .bsr _ => "BSR"
  | .bvc _ => "BVC"
  | .bvs _ => "BVS"
  | .jmp _ => "JMP"
  | .jsr _ => "JSR"
  | .lbrn _ => "LBRN"
  | .lbhi _ => "LBHI"
  | .lbls _ => "LBLS"
  | .lbcc _ => "LBCC"
  | .lbhs _ => "LBHS"
  | .lbcs _ => "LBCS"
  | .lblo _ => "LBLO"
  | .lbne _ => "LBNE"
  | .lbeq _ => "LBEQ"
  | .lbvc _ => "LBVC"
  | .lbvs _ => "LBVS"
  | .lbpl _ => "LBPL"
  | .lbmi _ => "LBMI"
  | .lbge _ => "LBGE"
  | .lblt _ => "LBLT"
  | .lbgt _ => "LBGT"
  | .lble _ => "LBLE"
  | .lbra _ => "LBRA"
  | .lbsr _ => "LBSR"
  | .nop => "NOP"
  | .rts => "RTS"
  | .swi => "SWI"
  | .swi2 => "SWI2"
  | .swi3 => "SWI3"
  | .rti => "RTI"
  | .cwai _ => "CWAI"
  | .sync => "SYNC"

/-- A hexadecimal digit. -/
def hexDigit (n : Nat) : String :=
  match n with
  | 0 => "0"
  | 1 => "1"
  | 2 => "2"
  | 3 => "3"
  | 4 => "4"
  | 5 => "5"
  | 6 => "6"
  | 7 => "7"
  | 8 => "8"
  | 9 => "9"
  | 10 => "A"
  | 11 => "B"
  | 12 => "C"
  | 13 => "D"
  | 14 => "E"
  | _ => "F"

/-- A byte as `$12`. -/
def hexByte (n : Byte) : String := "$" ++ hexDigit (n.toNat / 16) ++ hexDigit (n.toNat % 16)

/-- A word as `$1234`. -/
def hexWord (nn : Word) : String :=
  "$" ++ hexDigit (nn.toNat / 4096) ++ hexDigit (nn.toNat / 256 % 16) ++ hexDigit (nn.toNat / 16 % 16) ++
    hexDigit (nn.toNat % 16)

/-- The name of an index register. -/
def IndexReg.text : IndexReg → String
  | .x => "X"
  | .y => "Y"
  | .u => "U"
  | .s => "S"

/-- An indexed form in the conventional spelling (R118). -/
def IndexForm.text (r : String) : IndexForm → String
  | .postInc1 => "," ++ r ++ "+"
  | .postInc2 => "," ++ r ++ "++"
  | .preDec1 => ",-" ++ r
  | .preDec2 => ",--" ++ r
  | .zero => "," ++ r
  | .accB => "B," ++ r
  | .accA => "A," ++ r
  | .accD => "D," ++ r
  | .off8 n => hexByte n ++ "," ++ r
  | .off16 nn => hexWord nn ++ "," ++ r

/-- An operand in brackets if it is indirect (R118). -/
def bracketed (ind : Bool) (t : String) : String := if ind then "[" ++ t ++ "]" else t

/-- An indexed operand in the conventional spelling; offsets are written as their bytes (R118). -/
def Indexed.text : Indexed → String
  | .off5 r n => hexByte (n.signExtend 8) ++ "," ++ r.text
  | .form r f ind => bracketed ind (f.text r.text)
  | .pcr8 n ind => bracketed ind (hexByte n ++ ",PCR")
  | .pcr16 nn ind => bracketed ind (hexWord nn ++ ",PCR")
  | .extInd nn => bracketed true (hexWord nn)

/-- A memory operand: `<` direct, `>` extended (R118). -/
def Mem.text : Mem → String
  | .direct n => "<" ++ hexByte n
  | .indexed p => p.text
  | .extended nn => ">" ++ hexWord nn

/-- An 8-bit source (R118). -/
def Src8.text : Src8 → String
  | .imm n => "#" ++ hexByte n
  | .mem m => m.text

/-- A 16-bit source (R118). -/
def Src16.text : Src16 → String
  | .imm nn => "#" ++ hexWord nn
  | .mem m => m.text

/-- The name of a register of TFR and EXG (R118). -/
def AnyReg.text : AnyReg → String
  | .wide .d => "D"
  | .wide .x => "X"
  | .wide .y => "Y"
  | .wide .u => "U"
  | .wide .s => "S"
  | .wide .pc => "PC"
  | .byte .a => "A"
  | .byte .b => "B"
  | .byte .cc => "CC"
  | .byte .dp => "DP"

/-- The register list of a push or pull on a stack whose other pointer is `other`, bit 0 first (R107, R118). -/
def stackText (other : String) (mask : Byte) : String :=
  let names := ["CC", "A", "B", "DP", "X", "Y", other, "PC"]
  ",".intercalate ((names.zipIdx.filter fun p => mask.getLsbD p.2).map fun p => p.1)

/-- The operand of an instruction; `next` is the address after it, from which a branch names its target (R118, R163, R164). -/
def Instr.operandText (next : Word) : Instr → String
  | .abx => ""
  | .adca src => src.text
  | .adcb src => src.text
  | .adda src => src.text
  | .addb src => src.text
  | .addd src => src.text
  | .clr m => m.text
  | .clra => ""
  | .clrb => ""
  | .cmpa src => src.text
  | .cmpb src => src.text
  | .cmpd src => src.text
  | .cmps src => src.text
  | .cmpu src => src.text
  | .cmpx src => src.text
  | .cmpy src => src.text
  | .daa => ""
  | .dec m => m.text
  | .deca => ""
  | .decb => ""
  | .inc m => m.text
  | .inca => ""
  | .incb => ""
  | .mul => ""
  | .neg m => m.text
  | .nega => ""
  | .negb => ""
  | .sbca src => src.text
  | .sbcb src => src.text
  | .sex => ""
  | .suba src => src.text
  | .subb src => src.text
  | .subd src => src.text
  | .tst m => m.text
  | .tsta => ""
  | .tstb => ""
  | .anda src => src.text
  | .andb src => src.text
  | .andcc n => "#" ++ hexByte n
  | .asl m => m.text
  | .asla => ""
  | .aslb => ""
  | .asr m => m.text
  | .asra => ""
  | .asrb => ""
  | .bita src => src.text
  | .bitb src => src.text
  | .com m => m.text
  | .coma => ""
  | .comb => ""
  | .eora src => src.text
  | .eorb src => src.text
  | .lsl m => m.text
  | .lsla => ""
  | .lslb => ""
  | .lsr m => m.text
  | .lsra => ""
  | .lsrb => ""
  | .ora src => src.text
  | .orb src => src.text
  | .orcc n => "#" ++ hexByte n
  | .rol m => m.text
  | .rola => ""
  | .rolb => ""
  | .ror m => m.text
  | .rora => ""
  | .rorb => ""
  | .lda src => src.text
  | .ldb src => src.text
  | .ldd src => src.text
  | .lds src => src.text
  | .ldu src => src.text
  | .ldx src => src.text
  | .ldy src => src.text
  | .leax p => p.text
  | .leay p => p.text
  | .leas p => p.text
  | .leau p => p.text
  | .sta m => m.text
  | .stb m => m.text
  | .std m => m.text
  | .sts m => m.text
  | .stu m => m.text
  | .stx m => m.text
  | .sty m => m.text
  | .tfr r1 r2 => r1.text ++ "," ++ r2.text
  | .exg r1 r2 => r1.text ++ "," ++ r2.text
  | .pshs mask => stackText "U" mask
  | .pshu mask => stackText "S" mask
  | .puls mask => stackText "U" mask
  | .pulu mask => stackText "S" mask
  | .bcc off => hexWord (next + sext8 off)
  | .bcs off => hexWord (next + sext8 off)
  | .beq off => hexWord (next + sext8 off)
  | .bge off => hexWord (next + sext8 off)
  | .bgt off => hexWord (next + sext8 off)
  | .bhi off => hexWord (next + sext8 off)
  | .bhs off => hexWord (next + sext8 off)
  | .ble off => hexWord (next + sext8 off)
  | .blo off => hexWord (next + sext8 off)
  | .bls off => hexWord (next + sext8 off)
  | .blt off => hexWord (next + sext8 off)
  | .bmi off => hexWord (next + sext8 off)
  | .bne off => hexWord (next + sext8 off)
  | .bpl off => hexWord (next + sext8 off)
  | .bra off => hexWord (next + sext8 off)
  | .brn off => hexWord (next + sext8 off)
  | .bsr off => hexWord (next + sext8 off)
  | .bvc off => hexWord (next + sext8 off)
  | .bvs off => hexWord (next + sext8 off)
  | .jmp m => m.text
  | .jsr m => m.text
  | .lbrn off => hexWord (next + off)
  | .lbhi off => hexWord (next + off)
  | .lbls off => hexWord (next + off)
  | .lbcc off => hexWord (next + off)
  | .lbhs off => hexWord (next + off)
  | .lbcs off => hexWord (next + off)
  | .lblo off => hexWord (next + off)
  | .lbne off => hexWord (next + off)
  | .lbeq off => hexWord (next + off)
  | .lbvc off => hexWord (next + off)
  | .lbvs off => hexWord (next + off)
  | .lbpl off => hexWord (next + off)
  | .lbmi off => hexWord (next + off)
  | .lbge off => hexWord (next + off)
  | .lblt off => hexWord (next + off)
  | .lbgt off => hexWord (next + off)
  | .lble off => hexWord (next + off)
  | .lbra off => hexWord (next + off)
  | .lbsr off => hexWord (next + off)
  | .nop => ""
  | .rts => ""
  | .swi => ""
  | .swi2 => ""
  | .swi3 => ""
  | .rti => ""
  | .cwai n => "#" ++ hexByte n
  | .sync => ""

/-- A source line `mnemonic operand` (R118); `next` is the address after the instruction. -/
def Instr.text (next : Word) (i : Instr) : String := i.mnemonic ++ " " ++ i.operandText next

/-- The six assembler directives (R119). -/
inductive Directive where
  /-- `DIRECT`: "Direct addressing mode". -/
  | direct
  /-- `EXTEND`: "Extended addressing mode". -/
  | extend
  /-- `FCB n`. -/
  | fcb (n : Byte)
  /-- `FCC 'string'`. -/
  | fcc (chars : List Char)
  /-- `FDB nn`. -/
  | fdb (nn : Word)
  /-- `RMB nn`. -/
  | rmb (nn : Word)
deriving DecidableEq, Repr

/-- The bytes a directive emits (R119): FDB high byte first; FCC one byte a character, its ASCII code. -/
def Directive.emit : Directive → List Byte
  | .direct => []
  | .extend => []
  | .fcb n => [n]
  | .fcc chars => chars.map fun c => BitVec.ofNat 8 c.toNat
  | .fdb nn => [hi8 nn, lo8 nn]
  | .rmb _ => []

/-- How far a directive moves the location counter (R119). -/
def Directive.advance (d : Directive) : Word :=
  match d with
  | .rmb nn => nn
  | .direct => 0
  | .extend => 0
  | .fcb _ => 1
  | .fcc chars => BitVec.ofNat 16 chars.length
  | .fdb _ => 2

/-- The operand for an address under `DIRECT` (`force`) or `EXTEND` (R119). -/
def operandFor (force : Bool) (addr : Word) : Mem := if force then .direct (lo8 addr) else .extended addr

/-- A line of a program: an instruction or a directive. -/
inductive Line where
  | instr (i : Instr)
  | directive (d : Directive)
deriving DecidableEq, Repr

/-- The bytes of a line. -/
def Line.bytes : Line → List Byte
  | .instr i => encode i
  | .directive d => d.emit

/-- The location counter after a line at `loc`. -/
def Line.next (loc : Word) : Line → Word
  | .instr i => loc + BitVec.ofNat 16 (encode i).length
  | .directive d => loc + d.advance

end Sys2Proof

namespace Sys2Proof.Machine

/-- A program's lines placed in memory from `loc` on. -/
def assemble (loc : Word) (lines : List Line) (s : State) : State :=
  match lines with
  | [] => s
  | line :: rest => assemble (line.next loc) rest (pokeBytes loc line.bytes s)

end Sys2Proof.Machine
end

