-- ==== Sys2Proof/Machine/Cycles.lean ====
section
/-! DEFINITION. The cycle counts, as "a cost function" (R458): no step reads them and no result depends on them
(R464; log 25). -/

namespace Sys2Proof

/-- The cycles an indexed operand adds to those of `,R` (R166, R460). -/
def IndexForm.extraCycles : IndexForm → Nat
  | .zero => 0
  | .postInc1 => 2
  | .preDec1 => 2
  | .postInc2 => 3
  | .preDec2 => 3
  | .accA => 1
  | .accB => 1
  | .off8 _ => 1
  | .off16 _ => 4
  | .accD => 4

/-- "any other indirect form: the non-indirect figure +3" (R166). -/
def Indexed.extraCycles : Indexed → Nat
  | .off5 _ _ => 1
  | .form _ f ind => f.extraCycles + if ind then 3 else 0
  | .pcr8 _ ind => 1 + if ind then 3 else 0
  | .pcr16 _ ind => 5 + if ind then 3 else 0
  | .extInd _ => 5

/-- A memory operand's count, `e` being that of the extended form (R459). -/
def Mem.cycles (e : Nat) : Mem → Nat
  | .direct _ => e - 1
  | .indexed p => e - 1 + p.extraCycles
  | .extended _ => e

/-- An 8-bit source's count (R459). -/
def Src8.cycles (e : Nat) : Src8 → Nat
  | .imm _ => e - 3
  | .mem m => m.cycles e

/-- A 16-bit source's count (R459). -/
def Src16.cycles (e : Nat) : Src16 → Nat
  | .imm _ => e - 3
  | .mem m => m.cycles e

/-- The cycles of an instruction (R13, R458 to R463). `b` says of a long conditional branch that it is taken, of
RTI that the pulled E is 1; CWAI and SYNC have their least count. None for the four push and pull rows: the
spec records two figures and uses neither (R461). -/
def Instr.cycles (b : Bool) : Instr → Option Nat
  | .abx => some 3
  | .adca src => some (src.cycles 5)
  | .adcb src => some (src.cycles 5)
  | .adda src => some (src.cycles 5)
  | .addb src => some (src.cycles 5)
  | .addd src => some (src.cycles 7)
  | .clr m => some (m.cycles 7)
  | .clra => some 2
  | .clrb => some 2
  | .cmpa src => some (src.cycles 5)
  | .cmpb src => some (src.cycles 5)
  | .cmpd src => some (src.cycles 8)
  | .cmps src => some (src.cycles 8)
  | .cmpu src => some (src.cycles 8)
  | .cmpx src => some (src.cycles 7)
  | .cmpy src => some (src.cycles 8)
  | .daa => some 2
  | .dec m => some (m.cycles 7)
  | .deca => some 2
  | .decb => some 2
  | .inc m => some (m.cycles 7)
  | .inca => some 2
  | .incb => some 2
  | .mul => some 11
  | .neg m => some (m.cycles 7)
  | .nega => some 2
  | .negb => some 2
  | .sbca src => some (src.cycles 5)
  | .sbcb src => some (src.cycles 5)
  | .sex => some 2
  | .suba src => some (src.cycles 5)
  | .subb src => some (src.cycles 5)
  | .subd src => some (src.cycles 7)
  | .tst m => some (m.cycles 7)
  | .tsta => some 2
  | .tstb => some 2
  | .anda src => some (src.cycles 5)
  | .andb src => some (src.cycles 5)
  | .andcc _ => some 3
  | .asl m => some (m.cycles 7)
  | .asla => some 2
  | .aslb => some 2
  | .asr m => some (m.cycles 7)
  | .asra => some 2
  | .asrb => some 2
  | .bita src => some (src.cycles 5)
  | .bitb src => some (src.cycles 5)
  | .com m => some (m.cycles 7)
  | .coma => some 2
  | .comb => some 2
  | .eora src => some (src.cycles 5)
  | .eorb src => some (src.cycles 5)
  | .lsl m => some (m.cycles 7)
  | .lsla => some 2
  | .lslb => some 2
  | .lsr m => some (m.cycles 7)
  | .lsra => some 2
  | .lsrb => some 2
  | .ora src => some (src.cycles 5)
  | .orb src => some (src.cycles 5)
  | .orcc _ => some 3
  | .rol m => some (m.cycles 7)
  | .rola => some 2
  | .rolb => some 2
  | .ror m => some (m.cycles 7)
  | .rora => some 2
  | .rorb => some 2
  | .lda src => some (src.cycles 5)
  | .ldb src => some (src.cycles 5)
  | .ldd src => some (src.cycles 6)
  | .lds src => some (src.cycles 7)
  | .ldu src => some (src.cycles 6)
  | .ldx src => some (src.cycles 6)
  | .ldy src => some (src.cycles 7)
  | .leax p => some (4 + p.extraCycles)
  | .leay p => some (4 + p.extraCycles)
  | .leas p => some (4 + p.extraCycles)
  | .leau p => some (4 + p.extraCycles)
  | .sta m => some (m.cycles 5)
  | .stb m => some (m.cycles 5)
  | .std m => some (m.cycles 6)
  | .sts m => some (m.cycles 7)
  | .stu m => some (m.cycles 6)
  | .stx m => some (m.cycles 6)
  | .sty m => some (m.cycles 7)
  | .tfr _ _ => some 6
  | .exg _ _ => some 8
  | .pshs _ => none
  | .pshu _ => none
  | .puls _ => none
  | .pulu _ => none
  | .bcc _ => some 3
  | .bcs _ => some 3
  | .beq _ => some 3
  | .bge _ => some 3
  | .bgt _ => some 3
  | .bhi _ => some 3
  | .bhs _ => some 3
  | .ble _ => some 3
  | .blo _ => some 3
  | .bls _ => some 3
  | .blt _ => some 3
  | .bmi _ => some 3
  | .bne _ => some 3
  | .bpl _ => some 3
  | .bra _ => some 3
  | .brn _ => some 3
  | .bsr _ => some 7
  | .bvc _ => some 3
  | .bvs _ => some 3
  | .jmp m => some (m.cycles 4)
  | .jsr m => some (m.cycles 8)
  | .lbrn _ => some 5
  | .lbhi _ => some (if b then 6 else 5)
  | .lbls _ => some (if b then 6 else 5)
  | .lbcc _ => some (if b then 6 else 5)
  | .lbhs _ => some (if b then 6 else 5)
  | .lbcs _ => some (if b then 6 else 5)
  | .lblo _ => some (if b then 6 else 5)
  | .lbne _ => some (if b then 6 else 5)
  | .lbeq _ => some (if b then 6 else 5)
  | .lbvc _ => some (if b then 6 else 5)
  | .lbvs _ => some (if b then 6 else 5)
  | .lbpl _ => some (if b then 6 else 5)
  | .lbmi _ => some (if b then 6 else 5)
  | .lbge _ => some (if b then 6 else 5)
  | .lblt _ => some (if b then 6 else 5)
  | .lbgt _ => some (if b then 6 else 5)
  | .lble _ => some (if b then 6 else 5)
  | .lbra _ => some 5
  | .lbsr _ => some 9
  | .nop => some 2
  | .rts => some 5
  | .swi => some 19
  | .swi2 => some 20
  | .swi3 => some 20
  | .rti => some (if b then 15 else 6)
  | .cwai _ => some 20
  | .sync => some 2

end Sys2Proof

namespace Sys2Proof.Machine

/-- The cycles of an interrupt entry, general knowledge in the spec (R462). -/
def Event.cycles : Event → Nat
  | .nmi => 19
  | .irq => 19
  | .firq => 10
  | .swi => 19
  | .swi2 => 20
  | .swi3 => 20

end Sys2Proof.Machine
end

