-- ==== Sys2Proof/Tests/Slice0.lean ====
section
/-! SUPPORT. Tests: ill-formed terms, decoding word by word, one step at a time on the spec's own examples, and
for every statement that has hypotheses a witness that meets them. Expected results are the spec's. -/

namespace Sys2Proof.Tests

open Sys2Proof.Machine Sys2Proof.Claims

/-- The next state of an outcome; a stop is the state after reset, whose CC no example expects. -/
def after (o : Host.Outcome State Fault Refusal) : State :=
  match o with
  | .next t => t
  | .fault _ => State.reset
  | .refused _ => State.reset

/-- A small state: CC zero, S at 4000H, U at 5000H. -/
def base : State := { State.reset with s := 0x4000, u := 0x5000, cc := 0 }

/-- One step on an instruction's bytes placed at `pc`. -/
def runBytes (pc : Word) (bs : List Byte) (s : State) : State := after (step (pokeBytes pc bs { s with pc := pc }))

/-! ## Ill-formed terms -/

theorem test_wf_refuses_indirect_post_increment_1 : Instr.wellFormed (.lda (.mem (.indexed (.form .x .postInc1 true)))) = false := by decide
theorem test_wf_refuses_indirect_pre_decrement_1 : Instr.wellFormed (.sta (.indexed (.form .s .preDec1 true))) = false := by decide
theorem test_wf_refuses_source16 : Instr.wellFormed (.ldx (.mem (.indexed (.form .y .postInc1 true)))) = false := by decide
theorem test_wf_refuses_lea : Instr.wellFormed (.leax (.form .u .preDec1 true)) = false := by decide
theorem test_wf_refuses_tfr_16_to_8 : Instr.wellFormed (.tfr (.wide .d) (.byte .a)) = false := by decide
theorem test_wf_refuses_exg_16_with_8 : Instr.wellFormed (.exg (.wide .x) (.byte .dp)) = false := by decide
theorem test_wf_refuses_exg_8_with_16 : Instr.wellFormed (.exg (.byte .b) (.wide .d)) = false := by decide
theorem test_wf_accepts : Instr.wellFormed (.lda (.mem (.indexed (.form .x .postInc2 true)))) = true := by decide

/-- An ill-formed indexed operand is refused when it runs (R161, log 33). -/
theorem test_exec_refuses_ill_formed :
    exec (.leax (.form .x .postInc1 true)) base = .refused .undefinedPostbyte := rfl

/-! ## Decoding: every row of the opcode table, its opcode bytes as the table has them, the operand bytes written out -/

/-- Each word decodes to its instruction (an alias to its primary name) and the instruction encodes to the word. -/
def wordsAgree (ws : List (List Byte × Instr)) : Bool :=
  ws.all fun w => decide (decode w.1 = .ok w.2.canonical []) && decide (encode w.2 = w.1)

theorem test_decode_rows_1 : wordsAgree
    [([0x3A], .abx), ([0x89, 0x5A], .adca (.imm 0x5A)), ([0x99, 0x10], .adca (.mem (.direct 0x10))),
      ([0xA9, 0x84], .adca (.mem (.indexed (.form .x .zero false)))),
      ([0xB9, 0x20, 0x01], .adca (.mem (.extended 0x2001))), ([0xC9, 0x5A], .adcb (.imm 0x5A)),
      ([0xD9, 0x10], .adcb (.mem (.direct 0x10))), ([0xE9, 0x1F], .adcb (.mem (.indexed (.off5 .x 0x1F)))),
      ([0xF9, 0x20, 0x01], .adcb (.mem (.extended 0x2001))), ([0x8B, 0x5A], .adda (.imm 0x5A)),
      ([0x9B, 0x10], .adda (.mem (.direct 0x10))), ([0xAB, 0x65], .adda (.mem (.indexed (.off5 .s 0x05)))),
      ([0xBB, 0x20, 0x01], .adda (.mem (.extended 0x2001))), ([0xCB, 0x5A], .addb (.imm 0x5A)),
      ([0xDB, 0x10], .addb (.mem (.direct 0x10))),
      ([0xEB, 0xA0], .addb (.mem (.indexed (.form .y .postInc1 false)))),
      ([0xFB, 0x20, 0x01], .addb (.mem (.extended 0x2001))), ([0xC3, 0x12, 0x34], .addd (.imm 0x1234)),
      ([0xD3, 0x10], .addd (.mem (.direct 0x10))),
      ([0xE3, 0xC1], .addd (.mem (.indexed (.form .u .postInc2 false)))),
      ([0xF3, 0x20, 0x01], .addd (.mem (.extended 0x2001))), ([0x0F, 0x10], .clr (.direct 0x10)),
      ([0x6F, 0xE2], .clr (.indexed (.form .s .preDec1 false))), ([0x7F, 0x20, 0x01], .clr (.extended 0x2001)),
      ([0x4F], .clra), ([0x5F], .clrb), ([0x81, 0x5A], .cmpa (.imm 0x5A)),
      ([0x91, 0x10], .cmpa (.mem (.direct 0x10))),
      ([0xA1, 0x83], .cmpa (.mem (.indexed (.form .x .preDec2 false)))),
      ([0xB1, 0x20, 0x01], .cmpa (.mem (.extended 0x2001))), ([0xC1, 0x5A], .cmpb (.imm 0x5A)),
      ([0xD1, 0x10], .cmpb (.mem (.direct 0x10))),
      ([0xE1, 0xA5], .cmpb (.mem (.indexed (.form .y .accB false)))),
      ([0xF1, 0x20, 0x01], .cmpb (.mem (.extended 0x2001))), ([0x10, 0x83, 0x12, 0x34], .cmpd (.imm 0x1234))] = true := by decide

theorem test_decode_rows_2 : wordsAgree
    [([0x10, 0x93, 0x10], .cmpd (.mem (.direct 0x10))),
      ([0x10, 0xA3, 0xC6], .cmpd (.mem (.indexed (.form .u .accA false)))),
      ([0x10, 0xB3, 0x20, 0x01], .cmpd (.mem (.extended 0x2001))),
      ([0x11, 0x8C, 0x12, 0x34], .cmps (.imm 0x1234)), ([0x11, 0x9C, 0x10], .cmps (.mem (.direct 0x10))),
      ([0x11, 0xAC, 0x8B], .cmps (.mem (.indexed (.form .x .accD false)))),
      ([0x11, 0xBC, 0x20, 0x01], .cmps (.mem (.extended 0x2001))),
      ([0x11, 0x83, 0x12, 0x34], .cmpu (.imm 0x1234)), ([0x11, 0x93, 0x10], .cmpu (.mem (.direct 0x10))),
      ([0x11, 0xA3, 0xE8, 0x80], .cmpu (.mem (.indexed (.form .s (.off8 0x80) false)))),
      ([0x11, 0xB3, 0x20, 0x01], .cmpu (.mem (.extended 0x2001))), ([0x8C, 0x12, 0x34], .cmpx (.imm 0x1234)),
      ([0x9C, 0x10], .cmpx (.mem (.direct 0x10))),
      ([0xAC, 0x89, 0x12, 0x34], .cmpx (.mem (.indexed (.form .x (.off16 0x1234) false)))),
      ([0xBC, 0x20, 0x01], .cmpx (.mem (.extended 0x2001))), ([0x10, 0x8C, 0x12, 0x34], .cmpy (.imm 0x1234)),
      ([0x10, 0x9C, 0x10], .cmpy (.mem (.direct 0x10))),
      ([0x10, 0xAC, 0x8C, 0xFE], .cmpy (.mem (.indexed (.pcr8 0xFE false)))),
      ([0x10, 0xBC, 0x20, 0x01], .cmpy (.mem (.extended 0x2001))), ([0x19], .daa),
      ([0x0A, 0x10], .dec (.direct 0x10)), ([0x6A, 0x8D, 0x01, 0x02], .dec (.indexed (.pcr16 0x0102 false))),
      ([0x7A, 0x20, 0x01], .dec (.extended 0x2001)), ([0x4A], .deca), ([0x5A], .decb),
      ([0x0C, 0x10], .inc (.direct 0x10)), ([0x6C, 0x9F, 0x20, 0x00], .inc (.indexed (.extInd 0x2000))),
      ([0x7C, 0x20, 0x01], .inc (.extended 0x2001)), ([0x4C], .inca), ([0x5C], .incb), ([0x3D], .mul),
      ([0x00, 0x10], .neg (.direct 0x10)), ([0x60, 0x94], .neg (.indexed (.form .x .zero true))),
      ([0x70, 0x20, 0x01], .neg (.extended 0x2001)), ([0x40], .nega)] = true := by decide

theorem test_decode_rows_3 : wordsAgree
    [([0x50], .negb), ([0x82, 0x5A], .sbca (.imm 0x5A)), ([0x92, 0x10], .sbca (.mem (.direct 0x10))),
      ([0xA2, 0xB1], .sbca (.mem (.indexed (.form .y .postInc2 true)))),
      ([0xB2, 0x20, 0x01], .sbca (.mem (.extended 0x2001))), ([0xC2, 0x5A], .sbcb (.imm 0x5A)),
      ([0xD2, 0x10], .sbcb (.mem (.direct 0x10))),
      ([0xE2, 0xD3], .sbcb (.mem (.indexed (.form .u .preDec2 true)))),
      ([0xF2, 0x20, 0x01], .sbcb (.mem (.extended 0x2001))), ([0x1D], .sex), ([0x80, 0x5A], .suba (.imm 0x5A)),
      ([0x90, 0x10], .suba (.mem (.direct 0x10))),
      ([0xA0, 0xF5], .suba (.mem (.indexed (.form .s .accB true)))),
      ([0xB0, 0x20, 0x01], .suba (.mem (.extended 0x2001))), ([0xC0, 0x5A], .subb (.imm 0x5A)),
      ([0xD0, 0x10], .subb (.mem (.direct 0x10))),
      ([0xE0, 0x96], .subb (.mem (.indexed (.form .x .accA true)))),
      ([0xF0, 0x20, 0x01], .subb (.mem (.extended 0x2001))), ([0x83, 0x12, 0x34], .subd (.imm 0x1234)),
      ([0x93, 0x10], .subd (.mem (.direct 0x10))),
      ([0xA3, 0xBB], .subd (.mem (.indexed (.form .y .accD true)))),
      ([0xB3, 0x20, 0x01], .subd (.mem (.extended 0x2001))), ([0x0D, 0x10], .tst (.direct 0x10)),
      ([0x6D, 0xD8, 0x7F], .tst (.indexed (.form .u (.off8 0x7F) true))),
      ([0x7D, 0x20, 0x01], .tst (.extended 0x2001)), ([0x4D], .tsta), ([0x5D], .tstb),
      ([0x84, 0x5A], .anda (.imm 0x5A)), ([0x94, 0x10], .anda (.mem (.direct 0x10))),
      ([0xA4, 0xF9, 0x80, 0x01], .anda (.mem (.indexed (.form .s (.off16 0x8001) true)))),
      ([0xB4, 0x20, 0x01], .anda (.mem (.extended 0x2001))), ([0xC4, 0x5A], .andb (.imm 0x5A)),
      ([0xD4, 0x10], .andb (.mem (.direct 0x10))),
      ([0xE4, 0x9C, 0x05], .andb (.mem (.indexed (.pcr8 0x05 true)))),
      ([0xF4, 0x20, 0x01], .andb (.mem (.extended 0x2001)))] = true := by decide

theorem test_decode_rows_4 : wordsAgree
    [([0x1C, 0x5A], .andcc 0x5A), ([0x08, 0x10], .asl (.direct 0x10)),
      ([0x68, 0x9D, 0xFF, 0xFE], .asl (.indexed (.pcr16 0xFFFE true))),
      ([0x78, 0x20, 0x01], .asl (.extended 0x2001)), ([0x48], .asla), ([0x58], .aslb),
      ([0x07, 0x10], .asr (.direct 0x10)), ([0x67, 0x84], .asr (.indexed (.form .x .zero false))),
      ([0x77, 0x20, 0x01], .asr (.extended 0x2001)), ([0x47], .asra), ([0x57], .asrb),
      ([0x85, 0x5A], .bita (.imm 0x5A)), ([0x95, 0x10], .bita (.mem (.direct 0x10))),
      ([0xA5, 0x1F], .bita (.mem (.indexed (.off5 .x 0x1F)))),
      ([0xB5, 0x20, 0x01], .bita (.mem (.extended 0x2001))), ([0xC5, 0x5A], .bitb (.imm 0x5A)),
      ([0xD5, 0x10], .bitb (.mem (.direct 0x10))), ([0xE5, 0x65], .bitb (.mem (.indexed (.off5 .s 0x05)))),
      ([0xF5, 0x20, 0x01], .bitb (.mem (.extended 0x2001))), ([0x03, 0x10], .com (.direct 0x10)),
      ([0x63, 0xA0], .com (.indexed (.form .y .postInc1 false))),
      ([0x73, 0x20, 0x01], .com (.extended 0x2001)), ([0x43], .coma), ([0x53], .comb),
      ([0x88, 0x5A], .eora (.imm 0x5A)), ([0x98, 0x10], .eora (.mem (.direct 0x10))),
      ([0xA8, 0xC1], .eora (.mem (.indexed (.form .u .postInc2 false)))),
      ([0xB8, 0x20, 0x01], .eora (.mem (.extended 0x2001))), ([0xC8, 0x5A], .eorb (.imm 0x5A)),
      ([0xD8, 0x10], .eorb (.mem (.direct 0x10))),
      ([0xE8, 0xE2], .eorb (.mem (.indexed (.form .s .preDec1 false)))),
      ([0xF8, 0x20, 0x01], .eorb (.mem (.extended 0x2001))), ([0x08, 0x10], .lsl (.direct 0x10)),
      ([0x68, 0x83], .lsl (.indexed (.form .x .preDec2 false))), ([0x78, 0x20, 0x01], .lsl (.extended 0x2001))] = true := by decide

theorem test_decode_rows_5 : wordsAgree
    [([0x48], .lsla), ([0x58], .lslb), ([0x04, 0x10], .lsr (.direct 0x10)),
      ([0x64, 0xA5], .lsr (.indexed (.form .y .accB false))), ([0x74, 0x20, 0x01], .lsr (.extended 0x2001)),
      ([0x44], .lsra), ([0x54], .lsrb), ([0x8A, 0x5A], .ora (.imm 0x5A)),
      ([0x9A, 0x10], .ora (.mem (.direct 0x10))),
      ([0xAA, 0xC6], .ora (.mem (.indexed (.form .u .accA false)))),
      ([0xBA, 0x20, 0x01], .ora (.mem (.extended 0x2001))), ([0xCA, 0x5A], .orb (.imm 0x5A)),
      ([0xDA, 0x10], .orb (.mem (.direct 0x10))),
      ([0xEA, 0x8B], .orb (.mem (.indexed (.form .x .accD false)))),
      ([0xFA, 0x20, 0x01], .orb (.mem (.extended 0x2001))), ([0x1A, 0x5A], .orcc 0x5A),
      ([0x09, 0x10], .rol (.direct 0x10)), ([0x69, 0xE8, 0x80], .rol (.indexed (.form .s (.off8 0x80) false))),
      ([0x79, 0x20, 0x01], .rol (.extended 0x2001)), ([0x49], .rola), ([0x59], .rolb),
      ([0x06, 0x10], .ror (.direct 0x10)),
      ([0x66, 0x89, 0x12, 0x34], .ror (.indexed (.form .x (.off16 0x1234) false))),
      ([0x76, 0x20, 0x01], .ror (.extended 0x2001)), ([0x46], .rora), ([0x56], .rorb),
      ([0x86, 0x5A], .lda (.imm 0x5A)), ([0x96, 0x10], .lda (.mem (.direct 0x10))),
      ([0xA6, 0x8C, 0xFE], .lda (.mem (.indexed (.pcr8 0xFE false)))),
      ([0xB6, 0x20, 0x01], .lda (.mem (.extended 0x2001))), ([0xC6, 0x5A], .ldb (.imm 0x5A)),
      ([0xD6, 0x10], .ldb (.mem (.direct 0x10))),
      ([0xE6, 0x8D, 0x01, 0x02], .ldb (.mem (.indexed (.pcr16 0x0102 false)))),
      ([0xF6, 0x20, 0x01], .ldb (.mem (.extended 0x2001))), ([0xCC, 0x12, 0x34], .ldd (.imm 0x1234))] = true := by decide

theorem test_decode_rows_6 : wordsAgree
    [([0xDC, 0x10], .ldd (.mem (.direct 0x10))),
      ([0xEC, 0x9F, 0x20, 0x00], .ldd (.mem (.indexed (.extInd 0x2000)))),
      ([0xFC, 0x20, 0x01], .ldd (.mem (.extended 0x2001))), ([0x10, 0xCE, 0x12, 0x34], .lds (.imm 0x1234)),
      ([0x10, 0xDE, 0x10], .lds (.mem (.direct 0x10))),
      ([0x10, 0xEE, 0x94], .lds (.mem (.indexed (.form .x .zero true)))),
      ([0x10, 0xFE, 0x20, 0x01], .lds (.mem (.extended 0x2001))), ([0xCE, 0x12, 0x34], .ldu (.imm 0x1234)),
      ([0xDE, 0x10], .ldu (.mem (.direct 0x10))),
      ([0xEE, 0xB1], .ldu (.mem (.indexed (.form .y .postInc2 true)))),
      ([0xFE, 0x20, 0x01], .ldu (.mem (.extended 0x2001))), ([0x8E, 0x12, 0x34], .ldx (.imm 0x1234)),
      ([0x9E, 0x10], .ldx (.mem (.direct 0x10))),
      ([0xAE, 0xD3], .ldx (.mem (.indexed (.form .u .preDec2 true)))),
      ([0xBE, 0x20, 0x01], .ldx (.mem (.extended 0x2001))), ([0x10, 0x8E, 0x12, 0x34], .ldy (.imm 0x1234)),
      ([0x10, 0x9E, 0x10], .ldy (.mem (.direct 0x10))),
      ([0x10, 0xAE, 0xF5], .ldy (.mem (.indexed (.form .s .accB true)))),
      ([0x10, 0xBE, 0x20, 0x01], .ldy (.mem (.extended 0x2001))), ([0x30, 0x96], .leax (.form .x .accA true)),
      ([0x31, 0xBB], .leay (.form .y .accD true)), ([0x32, 0xD8, 0x7F], .leas (.form .u (.off8 0x7F) true)),
      ([0x33, 0xF9, 0x80, 0x01], .leau (.form .s (.off16 0x8001) true)), ([0x97, 0x10], .sta (.direct 0x10)),
      ([0xA7, 0x9C, 0x05], .sta (.indexed (.pcr8 0x05 true))), ([0xB7, 0x20, 0x01], .sta (.extended 0x2001)),
      ([0xD7, 0x10], .stb (.direct 0x10)), ([0xE7, 0x9D, 0xFF, 0xFE], .stb (.indexed (.pcr16 0xFFFE true))),
      ([0xF7, 0x20, 0x01], .stb (.extended 0x2001)), ([0xDD, 0x10], .std (.direct 0x10)),
      ([0xED, 0x84], .std (.indexed (.form .x .zero false))), ([0xFD, 0x20, 0x01], .std (.extended 0x2001)),
      ([0x10, 0xDF, 0x10], .sts (.direct 0x10)), ([0x10, 0xEF, 0x1F], .sts (.indexed (.off5 .x 0x1F))),
      ([0x10, 0xFF, 0x20, 0x01], .sts (.extended 0x2001))] = true := by decide

theorem test_decode_rows_7 : wordsAgree
    [([0xDF, 0x10], .stu (.direct 0x10)), ([0xEF, 0x65], .stu (.indexed (.off5 .s 0x05))),
      ([0xFF, 0x20, 0x01], .stu (.extended 0x2001)), ([0x9F, 0x10], .stx (.direct 0x10)),
      ([0xAF, 0xA0], .stx (.indexed (.form .y .postInc1 false))),
      ([0xBF, 0x20, 0x01], .stx (.extended 0x2001)), ([0x10, 0x9F, 0x10], .sty (.direct 0x10)),
      ([0x10, 0xAF, 0xC1], .sty (.indexed (.form .u .postInc2 false))),
      ([0x10, 0xBF, 0x20, 0x01], .sty (.extended 0x2001)), ([0x1F, 0x8B], .tfr (.byte .a) (.byte .dp)),
      ([0x1E, 0x12], .exg (.wide .x) (.wide .y)), ([0x34, 0x12], .pshs 0x12), ([0x36, 0x12], .pshu 0x12),
      ([0x35, 0x12], .puls 0x12), ([0x37, 0x12], .pulu 0x12), ([0x24, 0xFE], .bcc 0xFE),
      ([0x25, 0xFE], .bcs 0xFE), ([0x27, 0xFE], .beq 0xFE), ([0x2C, 0xFE], .bge 0xFE),
      ([0x2E, 0xFE], .bgt 0xFE), ([0x22, 0xFE], .bhi 0xFE), ([0x24, 0xFE], .bhs 0xFE),
      ([0x2F, 0xFE], .ble 0xFE), ([0x25, 0xFE], .blo 0xFE), ([0x23, 0xFE], .bls 0xFE),
      ([0x2D, 0xFE], .blt 0xFE), ([0x2B, 0xFE], .bmi 0xFE), ([0x26, 0xFE], .bne 0xFE),
      ([0x2A, 0xFE], .bpl 0xFE), ([0x20, 0xFE], .bra 0xFE), ([0x21, 0xFE], .brn 0xFE),
      ([0x8D, 0xFE], .bsr 0xFE), ([0x28, 0xFE], .bvc 0xFE), ([0x29, 0xFE], .bvs 0xFE),
      ([0x0E, 0x10], .jmp (.direct 0x10))] = true := by decide

theorem test_decode_rows_8 : wordsAgree
    [([0x6E, 0xE2], .jmp (.indexed (.form .s .preDec1 false))), ([0x7E, 0x20, 0x01], .jmp (.extended 0x2001)),
      ([0x9D, 0x10], .jsr (.direct 0x10)), ([0xAD, 0x83], .jsr (.indexed (.form .x .preDec2 false))),
      ([0xBD, 0x20, 0x01], .jsr (.extended 0x2001)), ([0x10, 0x21, 0xFF, 0xFD], .lbrn 0xFFFD),
      ([0x10, 0x22, 0xFF, 0xFD], .lbhi 0xFFFD), ([0x10, 0x23, 0xFF, 0xFD], .lbls 0xFFFD),
      ([0x10, 0x24, 0xFF, 0xFD], .lbcc 0xFFFD), ([0x10, 0x24, 0xFF, 0xFD], .lbhs 0xFFFD),
      ([0x10, 0x25, 0xFF, 0xFD], .lbcs 0xFFFD), ([0x10, 0x25, 0xFF, 0xFD], .lblo 0xFFFD),
      ([0x10, 0x26, 0xFF, 0xFD], .lbne 0xFFFD), ([0x10, 0x27, 0xFF, 0xFD], .lbeq 0xFFFD),
      ([0x10, 0x28, 0xFF, 0xFD], .lbvc 0xFFFD), ([0x10, 0x29, 0xFF, 0xFD], .lbvs 0xFFFD),
      ([0x10, 0x2A, 0xFF, 0xFD], .lbpl 0xFFFD), ([0x10, 0x2B, 0xFF, 0xFD], .lbmi 0xFFFD),
      ([0x10, 0x2C, 0xFF, 0xFD], .lbge 0xFFFD), ([0x10, 0x2D, 0xFF, 0xFD], .lblt 0xFFFD),
      ([0x10, 0x2E, 0xFF, 0xFD], .lbgt 0xFFFD), ([0x10, 0x2F, 0xFF, 0xFD], .lble 0xFFFD),
      ([0x16, 0xFF, 0xFD], .lbra 0xFFFD), ([0x17, 0xFF, 0xFD], .lbsr 0xFFFD), ([0x12], .nop), ([0x39], .rts),
      ([0x3F], .swi), ([0x10, 0x3F], .swi2), ([0x11, 0x3F], .swi3), ([0x3B], .rti), ([0x3C, 0x5A], .cwai 0x5A),
      ([0x13], .sync)] = true := by decide

/-- R165: postbytes of every form, read as operands. -/
theorem test_indexed_postbytes :
    decodeIndexed [0x00] = .ok (.off5 .x 0) [] ∧ decodeIndexed [0x7F] = .ok (.off5 .s 0x1F) [] ∧
    decodeIndexed [0x80] = .ok (.form .x .postInc1 false) [] ∧ decodeIndexed [0xF4] = .ok (.form .s .zero true) [] ∧
    decodeIndexed [0xCC, 0x80] = .ok (.pcr8 0x80 false) [] ∧ decodeIndexed [0xFD, 1, 2] = .ok (.pcr16 0x0102 true) [] ∧ decodeIndexed [0x8F] = .undefinedPostbyte ∧
    decodeIndexed [0x9F, 0x12] = .short := by decide

theorem test_undefined_words :
    decode [0x01] = .undefinedOpcode ∧ decode [0x10, 0x10] = .undefinedOpcode ∧ decode [0x11, 0x21] = .undefinedOpcode ∧
    decode [0xA6, 0x90] = .undefinedPostbyte ∧ decode [0x1F, 0xC0] = .undefinedRegisterCode ∧
    decode [0x10, 0x21, 0x00] = .short := by decide

theorem test_table_words :
    decodeTableWord 8 0x86 = some (.lda (.imm 0)) ∧ decodeTableWord 16 0x1021 = some (.lbrn 0) ∧
    decodeTableWord 16 0x2110 = some (.lbrn 0) ∧ decodeTableWord 8 0x01 = none := by decide

/-! ## The spec's examples, one step each -/

/-- R210. -/
theorem test_abx : let t := (runBytes 0x1000 [0x3A] { base with x := 0x1000, b := 0x80 })
    t.x = 0x1080 := by decide

/-- R210. -/
theorem test_abx_wraps : let t := (runBytes 0x1000 [0x3A] { base with x := 0xFFFF, b := 0x02 })
    t.x = 0x0001 := by decide

/-- R211. -/
theorem test_adca : let t := (runBytes 0x1000 [0x89, 0x10] { base with a := 0x2F, cc := 0x01 })
    t.a = 0x40 ∧ t.flag .h = true ∧ t.flag .n = false ∧ t.flag .z = false ∧ t.flag .v = false ∧ t.flag .c = false := by decide

/-- R211. -/
theorem test_adca_carry_counts_in_v : let t := (runBytes 0x1000 [0x89, 0x00] { base with a := 0x7F, cc := 0x01 })
    t.a = 0x80 ∧ t.flag .h = true ∧ t.flag .n = true ∧ t.flag .v = true ∧ t.flag .c = false := by decide

/-- R211. -/
theorem test_adcb : let t := (runBytes 0x1000 [0xC9, 0x00] { base with b := 0xFF, cc := 0x01 })
    t.b = 0x00 ∧ t.flag .h = true ∧ t.flag .z = true ∧ t.flag .v = false ∧ t.flag .c = true := by decide

/-- R212. -/
theorem test_adda : let t := (runBytes 0x1000 [0x8B, 0x80] { base with a := 0x80 })
    t.a = 0x00 ∧ t.flag .z = true ∧ t.flag .v = true ∧ t.flag .c = true ∧ t.flag .h = false := by decide

/-- R212. -/
theorem test_addb : let t := (runBytes 0x1000 [0xCB, 0x01] { base with b := 0xFF })
    t.b = 0x00 ∧ t.flag .h = true ∧ t.flag .n = false ∧ t.flag .z = true ∧ t.flag .v = false ∧ t.flag .c = true := by decide

/-- R213. -/
theorem test_addd : let t := (runBytes 0x1000 [0xC3, 0x01, 0x02] { base with a := 0x10, b := 0xFF })
    t.a = 0x12 ∧ t.b = 0x01 ∧ t.flag .n = false ∧ t.flag .z = false ∧ t.flag .v = false ∧ t.flag .c = false := ⟨by decide, by decide, (ccGet_ccPut _ _ _ _).trans (by decide), (ccGet_ccPut _ _ _ _).trans (by decide), (ccGet_ccPut _ _ _ _).trans (by decide), (ccGet_ccPut _ _ _ _).trans (by decide)⟩

/-- R213. -/
theorem test_addd_overflows : let t := (runBytes 0x1000 [0xC3, 0x00, 0x01] { base with a := 0x7F, b := 0xFF })
    t.a = 0x80 ∧ t.b = 0x00 ∧ t.flag .n = true ∧ t.flag .v = true ∧ t.flag .c = false := ⟨by decide, by decide, (ccGet_ccPut _ _ _ _).trans (by decide), (ccGet_ccPut _ _ _ _).trans (by decide), (ccGet_ccPut _ _ _ _).trans (by decide)⟩

/-- R214. -/
theorem test_clr : let t := (runBytes 0x1000 [0x7F, 0x20, 0x00] { base with cc := 0x0B })
    t.byteAt 0x2000 = some 0x00 ∧ t.flag .n = false ∧ t.flag .z = true ∧ t.flag .v = false ∧ t.flag .c = false := by decide

/-- R215. -/
theorem test_clra : let t := (runBytes 0x1000 [0x4F] { base with a := 0x5A, cc := 0x01 })
    t.a = 0x00 ∧ t.flag .n = false ∧ t.flag .z = true ∧ t.flag .v = false ∧ t.flag .c = false := by decide

/-- R215. -/
theorem test_clrb : let t := (runBytes 0x1000 [0x5F] { base with b := 0x5A, cc := 0x01 })
    t.b = 0x00 ∧ t.flag .n = false ∧ t.flag .z = true ∧ t.flag .v = false ∧ t.flag .c = false := by decide

/-- R216. -/
theorem test_cmpa : let t := (runBytes 0x1000 [0x81, 0x10] { base with a := 0x0F })
    t.a = 0x0F ∧ t.flag .n = true ∧ t.flag .z = false ∧ t.flag .v = false ∧ t.flag .c = true := ⟨by decide, (ccGet_ccPut _ _ _ _).trans (by decide), (ccGet_ccPut _ _ _ _).trans (by decide), (ccGet_ccPut _ _ _ _).trans (by decide), (ccGet_ccPut _ _ _ _).trans (by decide)⟩

/-- R216. -/
theorem test_cmpb : let t := (runBytes 0x1000 [0xC1, 0x01] { base with b := 0x80 })
    t.b = 0x80 ∧ t.flag .n = false ∧ t.flag .v = true ∧ t.flag .c = false := ⟨by decide, (ccGet_ccPut _ _ _ _).trans (by decide), (ccGet_ccPut _ _ _ _).trans (by decide), (ccGet_ccPut _ _ _ _).trans (by decide)⟩

/-- R217. -/
theorem test_cmpd : let t := (runBytes 0x1000 [0x10, 0x83, 0x12, 0x34] { base with a := 0x12, b := 0x34 })
    t.pc = 0x1004 ∧ t.flag .z = true ∧ t.flag .n = false ∧ t.flag .v = false ∧ t.flag .c = false := by decide

/-- R218. -/
theorem test_cmps : let t := (runBytes 0x1000 [0x11, 0x8C, 0x40, 0x00] { base with s := 0x3FFE })
    t.s = 0x3FFE ∧ t.flag .n = true ∧ t.flag .z = false ∧ t.flag .v = false ∧ t.flag .c = true := by decide

/-- R219. -/
theorem test_cmpu : let t := (runBytes 0x1000 [0x11, 0x83, 0x00, 0x00] { base with u := 0 })
    t.u = 0 ∧ t.flag .z = true ∧ t.flag .n = false ∧ t.flag .v = false ∧ t.flag .c = false := by decide

/-- R220. -/
theorem test_cmpx : let t := (runBytes 0x1000 [0x8C, 0x20, 0x03] { base with x := 0x2003 })
    t.x = 0x2003 ∧ t.flag .z = true ∧ t.flag .n = false ∧ t.flag .v = false ∧ t.flag .c = false := by decide

/-- R162. -/
theorem test_cmpx_uses_incremented_x : let t := (runBytes 0x1000 [0xAC, 0x81] { base with x := 0x2000, mem := [(0x2000, 0x20), (0x2001, 0x02)] })
    t.x = 0x2002 ∧ t.flag .z = true ∧ t.flag .n = false ∧ t.flag .v = false ∧ t.flag .c = false := by decide

/-- R220. -/
theorem test_cmpy : let t := (runBytes 0x1000 [0x10, 0x8C, 0xFF, 0xFF] { base with y := 0x0000 })
    t.y = 0x0000 ∧ t.flag .n = false ∧ t.flag .z = false ∧ t.flag .v = false ∧ t.flag .c = true := by decide

/-- R221. -/
theorem test_daa : let t := (runBytes 0x1000 [0x19] { base with a := 0x7D })
    t.a = 0x83 ∧ t.flag .n = true ∧ t.flag .z = false ∧ t.flag .c = false := ⟨by decide, (ccGet_ccPut _ _ _ _).trans (by decide), (ccGet_ccPut _ _ _ _).trans (by decide), (ccGet_ccPut _ _ _ _).trans (by decide)⟩

/-- R221. -/
theorem test_daa_carries : let t := (runBytes 0x1000 [0x19] { base with a := 0x9A })
    t.a = 0x00 ∧ t.flag .z = true ∧ t.flag .c = true := ⟨by decide, (ccGet_ccPut _ _ _ _).trans (by decide), (ccGet_ccPut _ _ _ _).trans (by decide)⟩

/-- R222. -/
theorem test_dec : let t := (runBytes 0x1000 [0x0A, 0x10] { base with dp := 0x20, mem := [(0x2010, 0x01)] })
    t.byteAt 0x2010 = some 0x00 ∧ t.flag .n = false ∧ t.flag .z = true ∧ t.flag .v = false := by decide

/-- R223. -/
theorem test_deca : let t := (runBytes 0x1000 [0x4A] { base with a := 0x80 })
    t.a = 0x7F ∧ t.flag .n = false ∧ t.flag .z = false ∧ t.flag .v = true := by decide

/-- R223. -/
theorem test_decb : let t := (runBytes 0x1000 [0x5A] { base with b := 0x00, cc := 0x01 })
    t.b = 0xFF ∧ t.flag .n = true ∧ t.flag .z = false ∧ t.flag .v = false ∧ t.flag .c = true := by decide

/-- R224. -/
theorem test_inc : let t := (runBytes 0x1000 [0x6C, 0x84] { base with x := 0x3000, mem := [(0x3000, 0x7F)] })
    t.byteAt 0x3000 = some 0x80 ∧ t.flag .n = true ∧ t.flag .z = false ∧ t.flag .v = true := by decide

/-- R225. -/
theorem test_inca : let t := (runBytes 0x1000 [0x4C] { base with a := 0xFF })
    t.a = 0x00 ∧ t.flag .n = false ∧ t.flag .z = true ∧ t.flag .v = false ∧ t.flag .c = false := by decide

/-- R225. -/
theorem test_incb : let t := (runBytes 0x1000 [0x5C] { base with b := 0x7F })
    t.b = 0x80 ∧ t.flag .n = true ∧ t.flag .v = true := by decide

/-- R226. -/
theorem test_mul : let t := (runBytes 0x1000 [0x3D] { base with a := 0x0C, b := 0x0D })
    t.a = 0x00 ∧ t.b = 0x9C ∧ t.flag .z = false ∧ t.flag .c = true := by decide

/-- R226. -/
theorem test_mul_largest : let t := (runBytes 0x1000 [0x3D] { base with a := 0xFF, b := 0xFF })
    t.a = 0xFE ∧ t.b = 0x01 ∧ t.flag .z = false ∧ t.flag .c = false := by decide

/-- R227. -/
theorem test_neg : let t := (runBytes 0x1000 [0x70, 0x20, 0x00] { base with mem := [(0x2000, 0x05)] })
    t.byteAt 0x2000 = some 0xFB ∧ t.flag .n = true ∧ t.flag .z = false ∧ t.flag .v = false ∧ t.flag .c = true := ⟨by decide, (ccGet_ccPut _ _ _ _).trans (by decide), (ccGet_ccPut _ _ _ _).trans (by decide), (ccGet_ccPut _ _ _ _).trans (by decide), (ccGet_ccPut _ _ _ _).trans (by decide)⟩

/-- R228. -/
theorem test_nega : let t := (runBytes 0x1000 [0x40] { base with a := 0x01 })
    t.a = 0xFF ∧ t.flag .n = true ∧ t.flag .z = false ∧ t.flag .v = false ∧ t.flag .c = true := ⟨by decide, (ccGet_ccPut _ _ _ _).trans (by decide), (ccGet_ccPut _ _ _ _).trans (by decide), (ccGet_ccPut _ _ _ _).trans (by decide), (ccGet_ccPut _ _ _ _).trans (by decide)⟩

/-- R228. -/
theorem test_negb : let t := (runBytes 0x1000 [0x50] { base with b := 0x80 })
    t.b = 0x80 ∧ t.flag .n = true ∧ t.flag .v = true ∧ t.flag .c = true := ⟨by decide, (ccGet_ccPut _ _ _ _).trans (by decide), (ccGet_ccPut _ _ _ _).trans (by decide), (ccGet_ccPut _ _ _ _).trans (by decide)⟩

/-- R229. -/
theorem test_sbca : let t := (runBytes 0x1000 [0x82, 0x01] { base with a := 0x10, cc := 0x01 })
    t.a = 0x0E ∧ t.flag .n = false ∧ t.flag .z = false ∧ t.flag .v = false ∧ t.flag .c = false := ⟨by decide, (ccGet_ccPut _ _ _ _).trans (by decide), (ccGet_ccPut _ _ _ _).trans (by decide), (ccGet_ccPut _ _ _ _).trans (by decide), (ccGet_ccPut _ _ _ _).trans (by decide)⟩

/-- R229. -/
theorem test_sbcb : let t := (runBytes 0x1000 [0xC2, 0xFF] { base with b := 0x00, cc := 0x01 })
    t.b = 0x00 ∧ t.flag .z = true ∧ t.flag .c = true := ⟨by decide, (ccGet_ccPut _ _ _ _).trans (by decide), (ccGet_ccPut _ _ _ _).trans (by decide)⟩

/-- R230. -/
theorem test_sex : let t := (runBytes 0x1000 [0x1D] { base with b := 0xF0 })
    t.a = 0xFF ∧ t.b = 0xF0 ∧ t.flag .n = true ∧ t.flag .z = false := by decide

/-- R231. -/
theorem test_suba : let t := (runBytes 0x1000 [0x80, 0x01] { base with a := 0x00 })
    t.a = 0xFF ∧ t.flag .n = true ∧ t.flag .z = false ∧ t.flag .v = false ∧ t.flag .c = true := ⟨by decide, (ccGet_ccPut _ _ _ _).trans (by decide), (ccGet_ccPut _ _ _ _).trans (by decide), (ccGet_ccPut _ _ _ _).trans (by decide), (ccGet_ccPut _ _ _ _).trans (by decide)⟩

/-- R231. -/
theorem test_subb : let t := (runBytes 0x1000 [0xC0, 0x01] { base with b := 0x80 })
    t.b = 0x7F ∧ t.flag .n = false ∧ t.flag .v = true ∧ t.flag .c = false := ⟨by decide, (ccGet_ccPut _ _ _ _).trans (by decide), (ccGet_ccPut _ _ _ _).trans (by decide), (ccGet_ccPut _ _ _ _).trans (by decide)⟩

/-- R232. -/
theorem test_subd : let t := (runBytes 0x1000 [0x83, 0x00, 0x01] { base with a := 0x01, b := 0x00 })
    t.a = 0x00 ∧ t.b = 0xFF ∧ t.flag .n = false ∧ t.flag .z = false ∧ t.flag .v = false ∧ t.flag .c = false := by decide

/-- R233. -/
theorem test_tst : let t := (runBytes 0x1000 [0x7D, 0x20, 0x00] { base with mem := [(0x2000, 0x80)] })
    t.flag .n = true ∧ t.flag .z = false ∧ t.flag .v = false := by decide

/-- R234. -/
theorem test_tsta : let t := (runBytes 0x1000 [0x4D] { base with a := 0x80 })
    t.a = 0x80 ∧ t.flag .n = true ∧ t.flag .z = false ∧ t.flag .v = false := by decide

/-- R234. -/
theorem test_tstb : let t := (runBytes 0x1000 [0x5D] { base with b := 0x00, cc := 0x01 })
    t.flag .n = false ∧ t.flag .z = true ∧ t.flag .v = false ∧ t.flag .c = true := by decide

/-- R260. -/
theorem test_anda : let t := (runBytes 0x1000 [0x84, 0x0F] { base with a := 0xA5 })
    t.a = 0x05 ∧ t.flag .n = false ∧ t.flag .z = false ∧ t.flag .v = false := by decide

/-- R260. -/
theorem test_andb : let t := (runBytes 0x1000 [0xC4, 0x00] { base with b := 0xA5, cc := 0x01 })
    t.b = 0x00 ∧ t.flag .z = true ∧ t.flag .c = true := by decide

/-- R261. -/
theorem test_andcc : let t := (runBytes 0x1000 [0x1C, 0xAF] { base with cc := 0xD5 })
    t.cc = 0x85 := by decide

/-- R262. -/
theorem test_asl : let t := (runBytes 0x1000 [0x78, 0x20, 0x00] { base with mem := [(0x2000, 0x41)] })
    t.byteAt 0x2000 = some 0x82 ∧ t.flag .n = true ∧ t.flag .z = false ∧ t.flag .v = true ∧ t.flag .c = false := ⟨by decide, (ccGet_ccPut _ _ _ _).trans (by decide), (ccGet_ccPut _ _ _ _).trans (by decide), (ccGet_ccPut _ _ _ _).trans (by decide), (ccGet_ccPut _ _ _ _).trans (by decide)⟩

/-- R263. -/
theorem test_asla : let t := (runBytes 0x1000 [0x48] { base with a := 0x81 })
    t.a = 0x02 ∧ t.flag .n = false ∧ t.flag .z = false ∧ t.flag .v = true ∧ t.flag .c = true := ⟨by decide, (ccGet_ccPut _ _ _ _).trans (by decide), (ccGet_ccPut _ _ _ _).trans (by decide), (ccGet_ccPut _ _ _ _).trans (by decide), (ccGet_ccPut _ _ _ _).trans (by decide)⟩

/-- R263. -/
theorem test_aslb : let t := (runBytes 0x1000 [0x58] { base with b := 0xC0 })
    t.b = 0x80 ∧ t.flag .n = true ∧ t.flag .v = false ∧ t.flag .c = true := ⟨by decide, (ccGet_ccPut _ _ _ _).trans (by decide), (ccGet_ccPut _ _ _ _).trans (by decide), (ccGet_ccPut _ _ _ _).trans (by decide)⟩

/-- R264. -/
theorem test_asr : let t := (runBytes 0x1000 [0x67, 0x84] { base with x := 0x2000, mem := [(0x2000, 0x85)] })
    t.byteAt 0x2000 = some 0xC2 ∧ t.flag .n = true ∧ t.flag .z = false ∧ t.flag .c = true := ⟨by decide, (ccGet_ccPut _ _ _ _).trans ((ccGet_ccPut _ _ _ _).trans (by decide)), (ccGet_ccPut _ _ _ _).trans ((ccGet_ccPut _ _ _ _).trans (by decide)), (ccGet_ccPut _ _ _ _).trans ((ccGet_ccPut _ _ _ _).trans (by decide))⟩

/-- R265. -/
theorem test_asra : let t := (runBytes 0x1000 [0x47] { base with a := 0xFF })
    t.a = 0xFF ∧ t.flag .n = true ∧ t.flag .c = true := ⟨by decide, (ccGet_ccPut _ _ _ _).trans ((ccGet_ccPut _ _ _ _).trans (by decide)), (ccGet_ccPut _ _ _ _).trans ((ccGet_ccPut _ _ _ _).trans (by decide))⟩

/-- R265. -/
theorem test_asrb : let t := (runBytes 0x1000 [0x57] { base with b := 0x02 })
    t.b = 0x01 ∧ t.flag .n = false ∧ t.flag .z = false ∧ t.flag .c = false := ⟨by decide, (ccGet_ccPut _ _ _ _).trans ((ccGet_ccPut _ _ _ _).trans (by decide)), (ccGet_ccPut _ _ _ _).trans ((ccGet_ccPut _ _ _ _).trans (by decide)), (ccGet_ccPut _ _ _ _).trans ((ccGet_ccPut _ _ _ _).trans (by decide))⟩

/-- R266. -/
theorem test_bita : let t := (runBytes 0x1000 [0x85, 0x80] { base with a := 0x7F })
    t.a = 0x7F ∧ t.flag .z = true ∧ t.flag .n = false ∧ t.flag .v = false := by decide

/-- R266. -/
theorem test_bitb : let t := (runBytes 0x1000 [0xC5, 0x81] { base with b := 0x80 })
    t.b = 0x80 ∧ t.flag .z = false ∧ t.flag .n = true ∧ t.flag .v = false := by decide

/-- R267. -/
theorem test_com : let t := (runBytes 0x1000 [0x73, 0x20, 0x00] { base with mem := [(0x2000, 0x0F)] })
    t.byteAt 0x2000 = some 0xF0 ∧ t.flag .n = true ∧ t.flag .z = false ∧ t.flag .v = false ∧ t.flag .c = true := by decide

/-- R268. -/
theorem test_coma : let t := (runBytes 0x1000 [0x43] { base with a := 0x00 })
    t.a = 0xFF ∧ t.flag .n = true ∧ t.flag .z = false ∧ t.flag .v = false ∧ t.flag .c = true := by decide

/-- R268. -/
theorem test_comb : let t := (runBytes 0x1000 [0x53] { base with b := 0xFF })
    t.b = 0x00 ∧ t.flag .z = true ∧ t.flag .c = true := by decide

/-- R269. -/
theorem test_eora : let t := (runBytes 0x1000 [0x88, 0x5A] { base with a := 0x5A })
    t.a = 0x00 ∧ t.flag .z = true := by decide

/-- R269. -/
theorem test_eorb : let t := (runBytes 0x1000 [0xC8, 0xFF] { base with b := 0x0F })
    t.b = 0xF0 ∧ t.flag .n = true ∧ t.flag .z = false ∧ t.flag .v = false := by decide

/-- R272. -/
theorem test_lsr : let t := (runBytes 0x1000 [0x74, 0x20, 0x00] { base with mem := [(0x2000, 0x81)] })
    t.byteAt 0x2000 = some 0x40 ∧ t.flag .n = false ∧ t.flag .z = false ∧ t.flag .c = true := ⟨by decide, (ccGet_ccPut _ _ _ _).trans (by decide), (ccGet_ccPut _ _ _ _).trans (by decide), (ccGet_ccPut _ _ _ _).trans (by decide)⟩

/-- R273. -/
theorem test_lsra : let t := (runBytes 0x1000 [0x44] { base with a := 0x01 })
    t.a = 0x00 ∧ t.flag .n = false ∧ t.flag .z = true ∧ t.flag .c = true := ⟨by decide, (ccGet_ccPut _ _ _ _).trans (by decide), (ccGet_ccPut _ _ _ _).trans (by decide), (ccGet_ccPut _ _ _ _).trans (by decide)⟩

/-- R273. -/
theorem test_lsrb : let t := (runBytes 0x1000 [0x54] { base with b := 0xFF })
    t.b = 0x7F ∧ t.flag .n = false ∧ t.flag .c = true := ⟨by decide, (ccGet_ccPut _ _ _ _).trans (by decide), (ccGet_ccPut _ _ _ _).trans (by decide)⟩

/-- R274. -/
theorem test_ora : let t := (runBytes 0x1000 [0x8A, 0x80] { base with a := 0x01 })
    t.a = 0x81 ∧ t.flag .n = true ∧ t.flag .z = false ∧ t.flag .v = false := by decide

/-- R274. -/
theorem test_orb : let t := (runBytes 0x1000 [0xCA, 0x00] { base with b := 0x00 })
    t.b = 0x00 ∧ t.flag .z = true := by decide

/-- R275. -/
theorem test_orcc : let t := (runBytes 0x1000 [0x1A, 0x50] { base with cc := 0x04 })
    t.cc = 0x54 := by decide

/-- R276. -/
theorem test_rol : let t := (runBytes 0x1000 [0x79, 0x20, 0x00] { base with cc := 0x01, mem := [(0x2000, 0x40)] })
    t.byteAt 0x2000 = some 0x81 ∧ t.flag .n = true ∧ t.flag .z = false ∧ t.flag .v = true ∧ t.flag .c = false := by decide

/-- R277. -/
theorem test_rola : let t := (runBytes 0x1000 [0x49] { base with a := 0x80, cc := 0x01 })
    t.a = 0x01 ∧ t.flag .n = false ∧ t.flag .z = false ∧ t.flag .v = true ∧ t.flag .c = true := by decide

/-- R277. -/
theorem test_rolb : let t := (runBytes 0x1000 [0x59] { base with b := 0x80 })
    t.b = 0x00 ∧ t.flag .z = true ∧ t.flag .v = true ∧ t.flag .c = true := by decide

/-- R278. -/
theorem test_ror : let t := (runBytes 0x1000 [0x76, 0x20, 0x00] { base with cc := 0x01, mem := [(0x2000, 0x03)] })
    t.byteAt 0x2000 = some 0x81 ∧ t.flag .n = true ∧ t.flag .z = false ∧ t.flag .c = true := ⟨by decide, (ccGet_ccPut _ _ _ _).trans (by decide), (ccGet_ccPut _ _ _ _).trans (by decide), (ccGet_ccPut _ _ _ _).trans (by decide)⟩

/-- R279. -/
theorem test_rora : let t := (runBytes 0x1000 [0x46] { base with a := 0x00, cc := 0x01 })
    t.a = 0x80 ∧ t.flag .n = true ∧ t.flag .c = false := ⟨by decide, (ccGet_ccPut _ _ _ _).trans (by decide), (ccGet_ccPut _ _ _ _).trans (by decide)⟩

/-- R279. -/
theorem test_rorb : let t := (runBytes 0x1000 [0x56] { base with b := 0x02 })
    t.b = 0x01 ∧ t.flag .n = false ∧ t.flag .z = false ∧ t.flag .c = false := ⟨by decide, (ccGet_ccPut _ _ _ _).trans (by decide), (ccGet_ccPut _ _ _ _).trans (by decide), (ccGet_ccPut _ _ _ _).trans (by decide)⟩

/-- R300. -/
theorem test_lda : let t := (runBytes 0x1000 [0x86, 0x80] { base with a := 0x00 })
    t.a = 0x80 ∧ t.flag .n = true ∧ t.flag .z = false ∧ t.flag .v = false := by decide

/-- R300. -/
theorem test_ldb : let t := (runBytes 0x1000 [0xC6, 0x00] { base with b := 0x55, cc := 0x01 })
    t.b = 0x00 ∧ t.flag .z = true ∧ t.flag .c = true := by decide

/-- R301. -/
theorem test_ldd : let t := (runBytes 0x1000 [0xCC, 0x12, 0x34] { base with a := 0 })
    t.a = 0x12 ∧ t.b = 0x34 ∧ t.flag .n = false ∧ t.flag .z = false ∧ t.flag .v = false := by decide

/-- R302. -/
theorem test_lds : let t := (runBytes 0x1000 [0x10, 0xCE, 0x40, 0x00] { base with s := 0 })
    t.s = 0x4000 ∧ t.nmiArmed = true ∧ t.flag .n = false ∧ t.flag .z = false ∧ t.flag .v = false := by decide

/-- R303. -/
theorem test_ldu : let t := (runBytes 0x1000 [0xFE, 0x20, 0x00] { base with mem := [(0x2000, 0x80), (0x2001, 0x00)] })
    t.u = 0x8000 ∧ t.nmiArmed = false ∧ t.flag .n = true ∧ t.flag .z = false ∧ t.flag .v = false := by decide

/-- R304. -/
theorem test_ldx_increment_overwritten : let t := (runBytes 0x1000 [0xAE, 0x81] { base with x := 0x2000, mem := [(0x2000, 0x80), (0x2001, 0x05)] })
    t.x = 0x8005 ∧ t.flag .n = true := by decide

/-- R304. -/
theorem test_ldy : let t := (runBytes 0x1000 [0x10, 0x8E, 0x00, 0x00] { base with y := 5 })
    t.y = 0 ∧ t.flag .n = false ∧ t.flag .z = true ∧ t.flag .v = false := by decide

/-- R305. -/
theorem test_leax : let t := (runBytes 0x1000 [0x30, 0x25] { base with y := 0x00FB })
    t.x = 0x0100 ∧ t.flag .z = false := by decide

/-- R162. -/
theorem test_leax_post_increment : let t := (runBytes 0x1000 [0x30, 0x80] { base with x := 0x2000 })
    t.x = 0x2000 := by decide

/-- R305. -/
theorem test_leay : let t := (runBytes 0x1000 [0x31, 0x3F] { base with y := 0x0001 })
    t.y = 0x0000 ∧ t.flag .z = true := by decide

/-- R305. -/
theorem test_leas : let t := (runBytes 0x1000 [0x32, 0x65] { base with s := 0x4000, cc := 0x04 })
    t.s = 0x4005 ∧ t.nmiArmed = true ∧ t.flag .z = true := by decide

/-- R305. -/
theorem test_leau : let t := (runBytes 0x1000 [0x33, 0xC9, 0xFF, 0xF6] { base with u := 0x000A, cc := 0x00 })
    t.u = 0x0000 ∧ t.flag .z = false := by decide

/-- R306. -/
theorem test_sta : let t := (runBytes 0x1000 [0xB7, 0x30, 0x00] { base with a := 0x00 })
    t.byteAt 0x3000 = some 0x00 ∧ t.flag .n = false ∧ t.flag .z = true ∧ t.flag .v = false := by decide

/-- R306. -/
theorem test_stb : let t := (runBytes 0x1000 [0xD7, 0x10] { base with b := 0x80, dp := 0x20 })
    t.byteAt 0x2010 = some 0x80 ∧ t.flag .n = true ∧ t.flag .z = false ∧ t.flag .v = false := by decide

/-- R307. -/
theorem test_std : let t := (runBytes 0x1000 [0xFD, 0xFF, 0xFF] { base with a := 0x01, b := 0x9C })
    t.byteAt 0xFFFF = some 0x01 ∧ t.byteAt 0x0000 = some 0x9C ∧ t.flag .n = false ∧ t.flag .z = false ∧ t.flag .v = false := by decide

/-- R308. -/
theorem test_sts : let t := (runBytes 0x1000 [0x10, 0xFF, 0x30, 0x00] { base with s := 0x3FF4 })
    t.byteAt 0x3000 = some 0x3F ∧ t.byteAt 0x3001 = some 0xF4 ∧ t.nmiArmed = false ∧ t.flag .n = false ∧ t.flag .z = false ∧ t.flag .v = false := by decide

/-- R309. -/
theorem test_stu : let t := (runBytes 0x1000 [0xEF, 0x84] { base with u := 0x8001, x := 0x2000 })
    t.byteAt 0x2000 = some 0x80 ∧ t.byteAt 0x2001 = some 0x01 ∧ t.flag .n = true ∧ t.flag .z = false ∧ t.flag .v = false := by decide

/-- R310. -/
theorem test_stx : let t := (runBytes 0x1000 [0x9F, 0x10] { base with dp := 0x20, x := 0x1234 })
    t.byteAt 0x2010 = some 0x12 ∧ t.byteAt 0x2011 = some 0x34 ∧ t.flag .n = false ∧ t.flag .z = false ∧ t.flag .v = false := by decide

/-- R310. -/
theorem test_stx_stores_incremented : let t := (runBytes 0x1000 [0xAF, 0x81] { base with x := 0x20FE })
    t.byteAt 0x20FE = some 0x21 ∧ t.byteAt 0x20FF = some 0x00 ∧ t.x = 0x2100 := by decide

/-- R310. -/
theorem test_sty : let t := (runBytes 0x1000 [0x10, 0xBF, 0x30, 0x00] { base with y := 0x0000 })
    t.byteAt 0x3000 = some 0 ∧ t.byteAt 0x3001 = some 0 ∧ t.flag .z = true := by decide

/-- R311. -/
theorem test_tfr : let t := (runBytes 0x1000 [0x1F, 0x8B] { base with a := 0x20 })
    t.dp = 0x20 ∧ t.a = 0x20 := by decide

/-- R311. -/
theorem test_tfr_to_s_arms : let t := (runBytes 0x1000 [0x1F, 0x14] { base with x := 0x1234 })
    t.s = 0x1234 ∧ t.nmiArmed = true := by decide

/-- R312. -/
theorem test_exg : let t := (runBytes 0x1000 [0x1E, 0x01] { base with a := 0x11, b := 0x11, x := 0x2222 })
    t.a = 0x22 ∧ t.b = 0x22 ∧ t.x = 0x1111 := by decide

/-- R312. -/
theorem test_exg_pc : let t := (runBytes 0x1000 [0x1E, 0x15] { base with x := 0x2222 })
    t.pc = 0x2222 ∧ t.x = 0x1002 := by decide

/-- R314. -/
theorem test_pshs : let t := (runBytes 0x1000 [0x34, 0x12] { base with s := 0x4000, a := 0xAA, x := 0x1234 })
    t.byteAt 0x3FFF = some 0x34 ∧ t.byteAt 0x3FFE = some 0x12 ∧ t.byteAt 0x3FFD = some 0xAA ∧ t.s = 0x3FFD := by decide

/-- R315. -/
theorem test_pshu : let t := (runBytes 0x1000 [0x36, 0x04] { base with u := 0x5000, b := 0x07 })
    t.byteAt 0x4FFF = some 0x07 ∧ t.u = 0x4FFF := by decide

/-- R316. -/
theorem test_puls : let t := (runBytes 0x1000 [0x35, 0x12] { base with s := 0x3FFD, mem := [(0x3FFD, 0xAA), (0x3FFE, 0x12), (0x3FFF, 0x34)] })
    t.a = 0xAA ∧ t.x = 0x1234 ∧ t.s = 0x4000 ∧ t.nmiArmed = false := by decide

/-- R317. -/
theorem test_pulu : let t := (runBytes 0x1000 [0x37, 0x44] { base with u := 0x4FFD, mem := [(0x4FFD, 0x07), (0x4FFE, 0x60), (0x4FFF, 0x01)] })
    t.b = 0x07 ∧ t.s = 0x6001 ∧ t.u = 0x5000 ∧ t.nmiArmed = true := by decide

/-- R341. -/
theorem test_bcc : let t := (runBytes 0x1009 [0x24, 0xFB] { base with cc := 0x0E })
    t.pc = 0x1006 := by decide

/-- R341. -/
theorem test_bcc_not : let t := (runBytes 0x1009 [0x24, 0xFB] { base with cc := 0x01 })
    t.pc = 0x100B := by decide

/-- R366. -/
theorem test_lbcc : let t := (runBytes 0x1000 [0x10, 0x24, 0x01, 0x00] { base with cc := 0x0E })
    t.pc = 0x1104 := by decide

/-- R366. -/
theorem test_lbcc_not : let t := (runBytes 0x1000 [0x10, 0x24, 0x01, 0x00] { base with cc := 0x01 })
    t.pc = 0x1004 := by decide

/-- R342. -/
theorem test_bcs : let t := (runBytes 0x1009 [0x25, 0xFB] { base with cc := 0x01 })
    t.pc = 0x1006 := by decide

/-- R342. -/
theorem test_bcs_not : let t := (runBytes 0x1009 [0x25, 0xFB] { base with cc := 0x0E })
    t.pc = 0x100B := by decide

/-- R367. -/
theorem test_lbcs : let t := (runBytes 0x1000 [0x10, 0x25, 0x01, 0x00] { base with cc := 0x01 })
    t.pc = 0x1104 := by decide

/-- R367. -/
theorem test_lbcs_not : let t := (runBytes 0x1000 [0x10, 0x25, 0x01, 0x00] { base with cc := 0x0E })
    t.pc = 0x1004 := by decide

/-- R343. -/
theorem test_beq : let t := (runBytes 0x1009 [0x27, 0xFB] { base with cc := 0x04 })
    t.pc = 0x1006 := by decide

/-- R343. -/
theorem test_beq_not : let t := (runBytes 0x1009 [0x27, 0xFB] { base with cc := 0x0B })
    t.pc = 0x100B := by decide

/-- R369. -/
theorem test_lbeq : let t := (runBytes 0x1000 [0x10, 0x27, 0x01, 0x00] { base with cc := 0x04 })
    t.pc = 0x1104 := by decide

/-- R369. -/
theorem test_lbeq_not : let t := (runBytes 0x1000 [0x10, 0x27, 0x01, 0x00] { base with cc := 0x0B })
    t.pc = 0x1004 := by decide

/-- R352. -/
theorem test_bmi : let t := (runBytes 0x1009 [0x2B, 0xFB] { base with cc := 0x08 })
    t.pc = 0x1006 := by decide

/-- R352. -/
theorem test_bmi_not : let t := (runBytes 0x1009 [0x2B, 0xFB] { base with cc := 0x07 })
    t.pc = 0x100B := by decide

/-- R373. -/
theorem test_lbmi : let t := (runBytes 0x1000 [0x10, 0x2B, 0x01, 0x00] { base with cc := 0x08 })
    t.pc = 0x1104 := by decide

/-- R373. -/
theorem test_lbmi_not : let t := (runBytes 0x1000 [0x10, 0x2B, 0x01, 0x00] { base with cc := 0x07 })
    t.pc = 0x1004 := by decide

/-- R353. -/
theorem test_bne : let t := (runBytes 0x1009 [0x26, 0xFB] { base with cc := 0x0B })
    t.pc = 0x1006 := by decide

/-- R353. -/
theorem test_bne_not : let t := (runBytes 0x1009 [0x26, 0xFB] { base with cc := 0x04 })
    t.pc = 0x100B := by decide

/-- R368. -/
theorem test_lbne : let t := (runBytes 0x1000 [0x10, 0x26, 0x01, 0x00] { base with cc := 0x0B })
    t.pc = 0x1104 := by decide

/-- R368. -/
theorem test_lbne_not : let t := (runBytes 0x1000 [0x10, 0x26, 0x01, 0x00] { base with cc := 0x04 })
    t.pc = 0x1004 := by decide

/-- R354. -/
theorem test_bpl : let t := (runBytes 0x1009 [0x2A, 0xFB] { base with cc := 0x07 })
    t.pc = 0x1006 := by decide

/-- R354. -/
theorem test_bpl_not : let t := (runBytes 0x1009 [0x2A, 0xFB] { base with cc := 0x08 })
    t.pc = 0x100B := by decide

/-- R372. -/
theorem test_lbpl : let t := (runBytes 0x1000 [0x10, 0x2A, 0x01, 0x00] { base with cc := 0x07 })
    t.pc = 0x1104 := by decide

/-- R372. -/
theorem test_lbpl_not : let t := (runBytes 0x1000 [0x10, 0x2A, 0x01, 0x00] { base with cc := 0x08 })
    t.pc = 0x1004 := by decide

/-- R358. -/
theorem test_bvc : let t := (runBytes 0x1009 [0x28, 0xFB] { base with cc := 0x0D })
    t.pc = 0x1006 := by decide

/-- R358. -/
theorem test_bvc_not : let t := (runBytes 0x1009 [0x28, 0xFB] { base with cc := 0x02 })
    t.pc = 0x100B := by decide

/-- R370. -/
theorem test_lbvc : let t := (runBytes 0x1000 [0x10, 0x28, 0x01, 0x00] { base with cc := 0x0D })
    t.pc = 0x1104 := by decide

/-- R370. -/
theorem test_lbvc_not : let t := (runBytes 0x1000 [0x10, 0x28, 0x01, 0x00] { base with cc := 0x02 })
    t.pc = 0x1004 := by decide

/-- R359. -/
theorem test_bvs : let t := (runBytes 0x1009 [0x29, 0xFB] { base with cc := 0x02 })
    t.pc = 0x1006 := by decide

/-- R359. -/
theorem test_bvs_not : let t := (runBytes 0x1009 [0x29, 0xFB] { base with cc := 0x0D })
    t.pc = 0x100B := by decide

/-- R371. -/
theorem test_lbvs : let t := (runBytes 0x1000 [0x10, 0x29, 0x01, 0x00] { base with cc := 0x02 })
    t.pc = 0x1104 := by decide

/-- R371. -/
theorem test_lbvs_not : let t := (runBytes 0x1000 [0x10, 0x29, 0x01, 0x00] { base with cc := 0x0D })
    t.pc = 0x1004 := by decide

/-- R346. -/
theorem test_bhi : let t := (runBytes 0x1009 [0x22, 0xFB] { base with cc := 0x0A })
    t.pc = 0x1006 := by decide

/-- R346. -/
theorem test_bhi_not : let t := (runBytes 0x1009 [0x22, 0xFB] { base with cc := 0x0B })
    t.pc = 0x100B := by decide

/-- R364. -/
theorem test_lbhi : let t := (runBytes 0x1000 [0x10, 0x22, 0x01, 0x00] { base with cc := 0x0A })
    t.pc = 0x1104 := by decide

/-- R364. -/
theorem test_lbhi_not : let t := (runBytes 0x1000 [0x10, 0x22, 0x01, 0x00] { base with cc := 0x0B })
    t.pc = 0x1004 := by decide

/-- R350. -/
theorem test_bls : let t := (runBytes 0x1009 [0x23, 0xFB] { base with cc := 0x04 })
    t.pc = 0x1006 := by decide

/-- R350. -/
theorem test_bls_not : let t := (runBytes 0x1009 [0x23, 0xFB] { base with cc := 0x0A })
    t.pc = 0x100B := by decide

/-- R365. -/
theorem test_lbls : let t := (runBytes 0x1000 [0x10, 0x23, 0x01, 0x00] { base with cc := 0x04 })
    t.pc = 0x1104 := by decide

/-- R365. -/
theorem test_lbls_not : let t := (runBytes 0x1000 [0x10, 0x23, 0x01, 0x00] { base with cc := 0x0A })
    t.pc = 0x1004 := by decide

/-- R344. -/
theorem test_bge : let t := (runBytes 0x1009 [0x2C, 0xFB] { base with cc := 0x0A })
    t.pc = 0x1006 := by decide

/-- R344. -/
theorem test_bge_not : let t := (runBytes 0x1009 [0x2C, 0xFB] { base with cc := 0x02 })
    t.pc = 0x100B := by decide

/-- R374. -/
theorem test_lbge : let t := (runBytes 0x1000 [0x10, 0x2C, 0x01, 0x00] { base with cc := 0x0A })
    t.pc = 0x1104 := by decide

/-- R374. -/
theorem test_lbge_not : let t := (runBytes 0x1000 [0x10, 0x2C, 0x01, 0x00] { base with cc := 0x02 })
    t.pc = 0x1004 := by decide

/-- R351. -/
theorem test_blt : let t := (runBytes 0x1009 [0x2D, 0xFB] { base with cc := 0x02 })
    t.pc = 0x1006 := by decide

/-- R351. -/
theorem test_blt_not : let t := (runBytes 0x1009 [0x2D, 0xFB] { base with cc := 0x0A })
    t.pc = 0x100B := by decide

/-- R375. -/
theorem test_lblt : let t := (runBytes 0x1000 [0x10, 0x2D, 0x01, 0x00] { base with cc := 0x02 })
    t.pc = 0x1104 := by decide

/-- R375. -/
theorem test_lblt_not : let t := (runBytes 0x1000 [0x10, 0x2D, 0x01, 0x00] { base with cc := 0x0A })
    t.pc = 0x1004 := by decide

/-- R345. -/
theorem test_bgt : let t := (runBytes 0x1009 [0x2E, 0xFB] { base with cc := 0x0A })
    t.pc = 0x1006 := by decide

/-- R345. -/
theorem test_bgt_not : let t := (runBytes 0x1009 [0x2E, 0xFB] { base with cc := 0x0E })
    t.pc = 0x100B := by decide

/-- R376. -/
theorem test_lbgt : let t := (runBytes 0x1000 [0x10, 0x2E, 0x01, 0x00] { base with cc := 0x0A })
    t.pc = 0x1104 := by decide

/-- R376. -/
theorem test_lbgt_not : let t := (runBytes 0x1000 [0x10, 0x2E, 0x01, 0x00] { base with cc := 0x0E })
    t.pc = 0x1004 := by decide

/-- R348. -/
theorem test_ble : let t := (runBytes 0x1009 [0x2F, 0xFB] { base with cc := 0x04 })
    t.pc = 0x1006 := by decide

/-- R348. -/
theorem test_ble_not : let t := (runBytes 0x1009 [0x2F, 0xFB] { base with cc := 0x00 })
    t.pc = 0x100B := by decide

/-- R377. -/
theorem test_lble : let t := (runBytes 0x1000 [0x10, 0x2F, 0x01, 0x00] { base with cc := 0x04 })
    t.pc = 0x1104 := by decide

/-- R377. -/
theorem test_lble_not : let t := (runBytes 0x1000 [0x10, 0x2F, 0x01, 0x00] { base with cc := 0x00 })
    t.pc = 0x1004 := by decide

/-- R355. -/
theorem test_bra : let t := (runBytes 0x1000 [0x20, 0x05] { base with cc := 0 })
    t.pc = 0x1007 := by decide

/-- R356. -/
theorem test_brn : let t := (runBytes 0x1000 [0x21, 0xFF] { base with cc := 0 })
    t.pc = 0x1002 := by decide

/-- R363. -/
theorem test_lbrn : let t := (runBytes 0x1000 [0x10, 0x21, 0x01, 0x00] { base with cc := 0x0F })
    t.pc = 0x1004 := by decide

/-- R378. -/
theorem test_lbra : let t := (runBytes 0x1000 [0x16, 0x01, 0x00] { base with cc := 0 })
    t.pc = 0x1103 := by decide

/-- R357. -/
theorem test_bsr : let t := (runBytes 0x1008 [0x8D, 0x05] { base with s := 0x4000 })
    t.byteAt 0x3FFF = some 0x0A ∧ t.byteAt 0x3FFE = some 0x10 ∧ t.s = 0x3FFE ∧ t.pc = 0x100F := by decide

/-- R379. -/
theorem test_lbsr : let t := (runBytes 0x1000 [0x17, 0x0F, 0xFD] { base with s := 0x4000 })
    t.byteAt 0x3FFE = some 0x10 ∧ t.byteAt 0x3FFF = some 0x03 ∧ t.s = 0x3FFE ∧ t.pc = 0x2000 := by decide

/-- R360. -/
theorem test_jmp : let t := (runBytes 0x1000 [0x7E, 0x12, 0x34] { base with cc := 0 })
    t.pc = 0x1234 := by decide

/-- R361. -/
theorem test_jsr : let t := (runBytes 0x1000 [0xBD, 0x20, 0x00] { base with s := 0x4000 })
    t.byteAt 0x3FFE = some 0x10 ∧ t.byteAt 0x3FFF = some 0x03 ∧ t.s = 0x3FFE ∧ t.pc = 0x2000 := by decide

/-- R380. -/
theorem test_nop : let t := (runBytes 0x1000 [0x12] { base with a := 0x55 })
    t.pc = 0x1001 ∧ t.a = 0x55 := by decide

/-- R381. -/
theorem test_rts : let t := (runBytes 0x1000 [0x39] { base with s := 0x3FFE, mem := [(0x3FFE, 0x10), (0x3FFF, 0x0A)] })
    t.pc = 0x100A ∧ t.s = 0x4000 := by decide

/-- R390. -/
theorem test_swi : let t := (runBytes 0x1008 [0x3F] { base with s := 0x4000, a := 0x55, b := 0x00, x := 0x1111, y := 0x2222, u := 0x3333, mem := [(0xFFFA, 0x11), (0xFFFB, 0x00)] })
    t.byteAt 0x3FF4 = some 0x80 ∧ t.byteAt 0x3FF5 = some 0x55 ∧ t.byteAt 0x3FF6 = some 0x00 ∧ t.byteAt 0x3FF7 = some 0x00 ∧ t.byteAt 0x3FF8 = some 0x11 ∧ t.byteAt 0x3FF9 = some 0x11 ∧ t.byteAt 0x3FFA = some 0x22 ∧ t.byteAt 0x3FFB = some 0x22 ∧ t.byteAt 0x3FFC = some 0x33 ∧ t.byteAt 0x3FFD = some 0x33 ∧ t.byteAt 0x3FFE = some 0x10 ∧ t.byteAt 0x3FFF = some 0x09 ∧ t.s = 0x3FF4 ∧ t.cc = 0xD0 ∧ t.pc = 0x1100 := by decide

/-- R391. -/
theorem test_swi2 : let t := (runBytes 0x2000 [0x10, 0x3F] { base with s := 0x0100, cc := 0x05, mem := [(0xFFF4, 0x30), (0xFFF5, 0x00)] })
    t.byteAt 0x00F4 = some 0x85 ∧ t.byteAt 0x00FE = some 0x20 ∧ t.byteAt 0x00FF = some 0x02 ∧ t.s = 0x00F4 ∧ t.cc = 0x85 ∧ t.pc = 0x3000 := by decide

/-- R392. -/
theorem test_swi3 : let t := (runBytes 0x2000 [0x11, 0x3F] { base with s := 0x0100, mem := [(0xFFF2, 0x40), (0xFFF3, 0x10)] })
    t.byteAt 0x00FF = some 0x02 ∧ t.s = 0x00F4 ∧ t.cc = 0x80 ∧ t.pc = 0x4010 := by decide

/-- R393. -/
theorem test_rti_entire : let t := (runBytes 0x1000 [0x3B] { base with s := 0x3FF4, mem := [(0x3FF4, 0x80), (0x3FF5, 0x55), (0x3FF6, 0x00), (0x3FF7, 0x00), (0x3FF8, 0x11), (0x3FF9, 0x11), (0x3FFA, 0x22), (0x3FFB, 0x22), (0x3FFC, 0x33), (0x3FFD, 0x33), (0x3FFE, 0x10), (0x3FFF, 0x09)] })
    t.cc = 0x80 ∧ t.a = 0x55 ∧ t.x = 0x1111 ∧ t.y = 0x2222 ∧ t.u = 0x3333 ∧ t.pc = 0x1009 ∧ t.s = 0x4000 := by decide

/-- R393. -/
theorem test_rti_fast : let t := (runBytes 0x1000 [0x3B] { base with s := 0x3FFD, a := 0x77, mem := [(0x3FFD, 0x04), (0x3FFE, 0x12), (0x3FFF, 0x34)] })
    t.cc = 0x04 ∧ t.pc = 0x1234 ∧ t.s = 0x4000 ∧ t.a = 0x77 := by decide

/-- R394. -/
theorem test_cwai : let t := (runBytes 0x1000 [0x3C, 0xEF] { base with s := 0x4000, cc := 0x50 })
    t.cc = 0xC0 ∧ t.byteAt 0x3FF4 = some 0xC0 ∧ t.byteAt 0x3FFE = some 0x10 ∧ t.byteAt 0x3FFF = some 0x02 ∧ t.s = 0x3FF4 ∧ t.runState = .cwaiWait := by decide

/-- R395. -/
theorem test_sync : let t := (runBytes 0x1000 [0x13] { base with cc := 0x50 })
    t.pc = 0x1001 ∧ t.cc = 0x50 ∧ t.runState = .syncWait := by decide

/-- R151. -/
theorem test_addr_a_offset_signed : let t := (runBytes 0x1000 [0xA6, 0x86] { base with a := 0xFF, x := 0x2000, mem := [(0x1FFF, 0x5A)] })
    t.a = 0x5A := by decide

/-- R157. -/
theorem test_addr_pcr : let t := (runBytes 0x1000 [0xA6, 0x8C, 0x05] { base with mem := [(0x1008, 0x5A)] })
    t.a = 0x5A := by decide

/-- R159. -/
theorem test_addr_ext_indirect : let t := (runBytes 0x1000 [0xA6, 0x9F, 0x20, 0x00] { base with mem := [(0x2000, 0x30), (0x2001, 0x00), (0x3000, 0x5A)] })
    t.a = 0x5A := by decide

/-- R160. -/
theorem test_addr_indirect_post_increment : let t := (runBytes 0x1000 [0xA6, 0x91] { base with x := 0x2000, mem := [(0x2000, 0x30), (0x2001, 0x00), (0x3000, 0x5A)] })
    t.a = 0x5A ∧ t.x = 0x2002 := by decide

/-- R162. -/
theorem test_addr_jsr_before_push : let t := (runBytes 0x1000 [0xAD, 0xE4] { base with s := 0x4000 })
    t.pc = 0x4000 ∧ t.s = 0x3FFE := by decide

/-! ## Interrupts, reset, waits -/

/-- IRQ with I clear: the entire frame, I set, F as it was (R406, R409, R411). -/
theorem test_irq_entry :
    let t := after (step { base with pc := 0x1009, inputs := [⟨false, false, true, false⟩], mem := [(0xFFF8, 0x12), (0xFFF9, 0x34)] })
    t.pc = 0x1234 ∧ t.s = 0x3FF4 ∧ t.cc = 0x90 ∧ t.byteAt 0x3FF4 = some 0x80 ∧ t.byteAt 0x3FFF = some 0x09 := by decide

/-- FIRQ with F clear goes before IRQ: PC and CC stacked, E clear (R405, R408, R410). -/
theorem test_firq_entry :
    let t := after (step { base with pc := 0x1009, cc := 0x80, inputs := [⟨false, true, true, false⟩], mem := [(0xFFF6, 0x12), (0xFFF7, 0x34)] })
    t.pc = 0x1234 ∧ t.s = 0x3FFD ∧ t.cc = 0x50 ∧ t.byteAt 0x3FFD = some 0x00 ∧ t.byteAt 0x3FFE = some 0x10 := by decide

/-- A masked IRQ is not taken: the instruction runs (R406). -/
theorem test_irq_masked : (runBytes 0x1000 [0x12] { base with cc := 0x10, inputs := [⟨false, false, true, false⟩] }).pc = 0x1001 := by
  decide

/-- An NMI edge while armed is taken at once and leaves no latch (R404, R409). -/
theorem test_nmi_entry :
    let t := after (step { base with cc := 0x50, nmiArmed := true, inputs := [⟨true, false, false, false⟩], mem := [(0xFFFC, 0x12), (0xFFFD, 0x34)] })
    t.pc = 0x1234 ∧ t.cc = 0xD0 ∧ t.nmiPending = false ∧ t.s = 0x3FF4 := by decide

/-- An NMI edge before S is loaded is lost (R455). -/
theorem test_nmi_disarmed : (runBytes 0x1000 [0x12] { base with inputs := [⟨true, false, false, false⟩] }).nmiPending = false := by
  decide

/-- R394's example: IRQ ends the wait without stacking. -/
theorem test_cwai_wakes :
    let t := after (step { base with s := 0x3FF4, cc := 0xC0, runState := .cwaiWait, inputs := [⟨false, false, true, false⟩], mem := [(0xFFF8, 0x12), (0xFFF9, 0x34)] })
    t.pc = 0x1234 ∧ t.cc = 0xD0 ∧ t.s = 0x3FF4 ∧ t.runState = .running := by decide

/-- R395's example: a masked IRQ ends SYNC and the next instruction runs. -/
theorem test_sync_masked :
    let t := runBytes 0x1001 [0x12] { base with cc := 0x50, runState := .syncWait, inputs := [⟨false, false, true, false⟩] }
    t.pc = 0x1002 ∧ t.cc = 0x50 ∧ t.runState = .running := by decide

/-- Reset from a wait (R450). -/
theorem test_reset_input :
    let t := after (step { base with a := 0x77, dp := 0x20, nmiArmed := true, nmiPending := true, runState := .cwaiWait, inputs := [⟨true, true, true, true⟩], mem := [(0xFFFE, 0x12), (0xFFFF, 0x34)] })
    t.pc = 0x1234 ∧ t.cc = 0x50 ∧ t.dp = 0 ∧ t.nmiArmed = false ∧ t.nmiPending = false ∧ t.runState = .running ∧ t.a = 0x77 := by
  decide

/-! ## Memory that stops a step -/

/-- A device whose reads have no side effects, at 4000H; one whose reads have, at 5000H. -/
def devices : State := { base with memMap := [⟨0x4000, 0x1000, .device ⟨1, false⟩⟩, ⟨0x5000, 0x1000, .device ⟨2, true⟩⟩] }

/-- R68: a plain store and a plain load reach either device; RMW, TST and CLR only the one without side effects. -/
theorem test_devices :
    (after (exec (.std (.extended 0x5000)) { devices with a := 0x12, b := 0x34 })).deviceLog =
      [⟨⟨2, true⟩, 0x5001, some 0x34⟩, ⟨⟨2, true⟩, 0x5000, some 0x12⟩] ∧
    (after (exec (.lda (.mem (.extended 0x5000))) devices)).deviceLog = [⟨⟨2, true⟩, 0x5000, none⟩] ∧
    (after (exec (.lda (.mem (.extended 0x5000))) devices)).a = Config.deviceByte [] ⟨2, true⟩ 0x5000 ∧
    (after (exec (.adda (.mem (.extended 0x4000))) devices)).deviceLog = [⟨⟨1, false⟩, 0x4000, none⟩] ∧
    (after (exec (.clr (.extended 0x4000)) devices)).deviceLog = [⟨⟨1, false⟩, 0x4000, some 0⟩] ∧
    exec (.tst (.extended 0x5000)) devices = .refused (.device 0x5000) ∧
    exec (.inc (.extended 0x5000)) devices = .refused (.device 0x5000) ∧
    exec (.clr (.extended 0x5000)) devices = .refused (.device 0x5000) ∧
    exec (.jmp (.indexed (.extInd 0x5000))) devices = .refused (.device 0x5000) :=
  ⟨rfl, rfl, rfl, rfl, rfl, rfl, rfl, rfl, rfl⟩

/-- R68: a read-modify-write reads the location once and writes it once. -/
theorem test_device_modify : ∃ v, (after (exec (.inc (.extended 0x4000)) devices)).deviceLog =
    [⟨⟨1, false⟩, 0x4000, some v⟩, ⟨⟨1, false⟩, 0x4000, none⟩] := ⟨_, rfl⟩

/-! ## The policies of R6 -/

/-- R205, `FLAG_POLICY = motorola`: ADDD leaves H; ASR, LSR and ROR leave V. -/
theorem test_flag_policy_motorola :
    let s : State := { base with a := 0x80, cc := 0x22, policies := { Config.Policies.default with flags := .motorola } };
    (after (exec (.addd (.imm 1)) s)).flag .h = true ∧ (after (exec .asra s)).flag .v = true ∧
      (after (exec .lsra s)).flag .v = true ∧ (after (exec .rora s)).flag .v = true := by
  refine ⟨rfl, ?_, rfl, rfl⟩
  simp [exec, execAsra, modifyReg, shiftRightArith, after, State.set8, State.flag, State.drawFlag,
    Config.FlagPolicy.draws, Config.OpenFlag.unchangedByMotorola, ccGet_ccPut, State.setNZ, State.setFlag]
  rfl

/-- R205: the draw for H of SBCa takes CC as it was, here with the carry-in set, which SBCa itself clears. -/
theorem test_open_half_carry_sees_carry_in :
    let s : State := { base with cc := 0x01 };
    let t := (subtractWithCarry 0x05 0x01 s).2;
    t.flag .h = Config.openFlag .sub8H s.draws 0x01 0x0005 0x0001 ∧ t.flag .c = false := by
  refine ⟨?_, ?_⟩ <;> simp [subtractWithCarry, sub8, zext8, base, State.reset, Config.Policies.default,
    Config.FlagPolicy.draws, State.flag_setNZVC]
  decide

/-- D15: `20 FE` ends a run with no `HALT_PC`, and does not end one that has it elsewhere. -/
theorem test_self_branch_end :
    let s : State := { base with pc := 0x1000, mem := [(0x1000, 0x20), (0x1001, 0xFE)] };
    Finished none s ∧ ¬Finished (some 0x2000) s := by
  refine ⟨.inr (.inl ⟨rfl, rfl, rfl, rfl, _, _, rfl, .inl rfl⟩), ?_⟩
  simp [Finished, base, State.reset]

/-- D7, `UNDEF_OPCODE_POLICY = fault`, and the default. -/
theorem test_undef_policy :
    let s : State := { base with mem := [(0x0000, 0x01)] };
    step { s with pc := 0, policies := { Config.Policies.default with undefOpcode := .fault } } = .fault .undefinedOpcode ∧
      step { s with pc := 0 } = .refused .undefinedOpcode := ⟨rfl, rfl⟩

/-- D12, `NMI_ARM_SET` of LDS alone: LDS arms, LEAS does not. -/
theorem test_arm_policy :
    let set : Config.NmiArmSet := { lds := true, leas := false, tfr := false, exg := false, pulu := false }
    let s : State := { base with policies := { Config.Policies.default with nmiArm := set } };
    (after (exec (.lds (.imm 0x4000)) s)).nmiArmed = true ∧
      (after (exec (.leas (.form .x .zero false)) s)).nmiArmed = false ∧
      (after (exec (.leas (.form .x .zero false)) base)).nmiArmed = true := ⟨rfl, rfl, rfl⟩

/-- R70: an unwritten byte, ROM, nothing. -/
theorem test_stops :
    exec (.lda (.mem (.extended 0x2000))) base = .fault (.unwritten 0x2000) ∧
    exec (.sta (.extended 0xF000)) { base with memMap := [⟨0xF000, 0x1000, .rom⟩] } = .fault (.romWrite 0xF000) ∧
    exec (.sta (.extended 0xF000)) { base with memMap := [⟨0xF000, 0x1000, .unmapped⟩] } = .fault (.unmapped 0xF000) :=
  ⟨rfl, rfl, rfl⟩

/-! ## Cycles and source text -/

/-- The counts R459 works out. -/
theorem test_cycles :
    Instr.cycles false (.lda (.mem (.extended 0))) = some 5 ∧ Instr.cycles false (.lda (.imm 0)) = some 2 ∧
    Instr.cycles false (.addd (.mem (.direct 0))) = some 6 ∧ Instr.cycles false (.cmpd (.imm 0)) = some 5 ∧
    Instr.cycles false (.ldy (.mem (.indexed (.form .x .zero false)))) = some 6 ∧
    Instr.cycles false (.jsr (.extended 0)) = some 8 ∧ Instr.cycles false (.com (.extended 0)) = some 7 := by decide

/-- R118, R119: a source line, and the bytes of FDB and FCC. -/
theorem test_assembler :
    Instr.text 0x1002 (.lda (.imm 0x12)) = "LDA #$12" ∧ Directive.emit (.fdb 0x1234) = [0x12, 0x34] ∧
    Directive.emit (.fcc ['A', 'b']) = [0x41, 0x62] := by decide

/-! ## Witnesses: for every statement with hypotheses, values that meet them together -/

/-- A state of small memory: a pointer at 2000H to 3000H, a byte there, X at the pointer. -/
def ram : State := { base with x := 0x2000, dp := 0x20, mem := [(0x2000, 0x30), (0x2001, 0x00), (0x3000, 0x5A), (0x3001, 0xA5)] }

/-- Code at the top of memory, wrapping: LBRN at FFFEH. -/
def topCode : State := pokeBytes 0xFFFE [0x10, 0x21, 0x00, 0x00] { base with pc := 0xFFFE }

/-- Every cell holds zero. -/
def zeroCells : Memory := (List.range 65536).map fun k => (k, 0)

/-- Every address has a cell, and it holds zero. -/
theorem zeroCells_read (addr : Word) : zeroCells.read addr.toNat = some 0 := by
  refine Memory.read_const (fun e he => ?_) ⟨(addr.toNat, 0), List.mem_map.2 ⟨addr.toNat, List.mem_range.2 addr.isLt, rfl⟩, rfl⟩
  obtain ⟨k, -, rfl⟩ := List.mem_map.1 he
  rfl

/-- Registers as after reset, over any memory that is RAM throughout. -/
def withMem (m : Memory) : State := { base with mem := m }

theorem withMem_full {m : Memory} (h : ∀ addr : Word, m.read addr.toNat = some 0) : (withMem m).FullRam :=
  fun addr => ⟨rfl, 0, .inl rfl, h addr⟩

/-- Running, no sample to come, no NMI latched: an instruction runs. -/
theorem runs_instruction {s : State} (h1 : s.runState = .running) (h2 : s.inputs = []) (h3 : s.nmiPending = false) :
    RunsInstruction s := by
  refine ⟨h1, by simp [State.sample, h2, Inputs.inactive], fun ev => ?_⟩
  cases ev <;> simp [Accepts, NmiRequested, State.sample, h2, h3, Inputs.inactive]

/-- A block placed in memory is stored as `WithStored` says. -/
theorem withStored_pokeBytes (s : State) (addr : Word) (bs : List Byte) (hl : bs.length ≤ 12) :
    WithStored s addr bs (pokeBytes addr bs s) := by
  refine ⟨pokeBytes_memMap bs addr s, fun k v h => byteAt_pokeBytes_inside s (by omega) h, fun a ha => ?_⟩
  refine byteAt_pokeBytes_outside s fun k hk he => ha ?_
  exact List.mem_map.2 ⟨k, List.mem_range.2 hk, he.symm⟩

/-- Bytes that lie in RAM can be read. -/
theorem holds_pokeBytes (s : State) (addr : Word) (bs : List Byte) (hl : bs.length ≤ 12) (hm : s.memMap = []) :
    Holds (pokeBytes addr bs s) addr bs := fun k v h =>
  ⟨.inl (by simp [State.kind, hm, kindAt]), byteAt_pokeBytes_inside s (by omega) h⟩

theorem witness_DecodeOfEncodeIsCanonical : WellFormed (.lda (.mem (.indexed (.form .x .postInc2 true)))) := by decide

theorem witness_DecodeReadsOneBlock : decode [0x10, 0xA3, 0x99, 0x12, 0x34, 0x56] =
    .ok (.cmpd (.mem (.indexed (.form .x (.off16 0x1234) true)))) [0x56] := by decide

theorem witness_UndefinedOpcodesRefused :
    (∀ op ∈ [(0x01 : Byte), 0xCF], ∃ s : State, RunsInstruction s ∧ s.Reads s.pc op ∧ op ∈ undefinedPage1) ∧
    (∀ w ∈ [((0x10 : Byte), (0x00 : Byte)), (0x10, 0xFD), (0x11, 0x00), (0x11, 0xFF)],
      ∃ s : State, RunsInstruction s ∧ Holds s s.pc [w.1, w.2] ∧
        (w.1 = 0x10 ∧ w.2 ∉ definedPage2 ∨ w.1 = 0x11 ∧ w.2 ∉ definedPage3)) ∧
    (∀ op ∈ [(0x00 : Byte), 0xFF], op ∉ undefinedPage1 ∧ op ≠ 0x10 ∧ op ≠ 0x11) ∧
    (∀ w ∈ [((0x10 : Byte), (0x21 : Byte)), (0x10, 0xFF), (0x11, 0x3F), (0x11, 0xBC)],
      w.1 = 0x10 ∧ w.2 ∈ definedPage2 ∨ w.1 = 0x11 ∧ w.2 ∈ definedPage3) := by
  refine ⟨fun op hop => ⟨base.poke 0 op, runs_instruction rfl rfl rfl, ⟨.inl rfl, ?_⟩, ?_⟩, fun w hw =>
    ⟨pokeBytes 0 [w.1, w.2] base, runs_instruction rfl rfl rfl, holds_pokeBytes base 0 _ ?_ rfl, ?_⟩, by decide, fun w hw => ?_⟩
  · exact State.byteAt_poke_same base 0 op
  · revert op
    decide
  · simp
  · simp only [List.mem_cons, List.not_mem_nil, or_false] at hw
    rcases hw with rfl | rfl | rfl | rfl <;> decide
  · simp only [List.mem_cons, List.not_mem_nil, or_false] at hw
    rcases hw with rfl | rfl | rfl | rfl <;> decide

theorem witness_UndefinedPostbytesRefused : ∀ pb ∈ [(0x87 : Byte), 0xFF], ∃ (s : State) (op : Byte),
    RunsInstruction s ∧ op ∈ [(0x30 : Byte), 0x31, 0x32, 0x33] ∧ Holds s s.pc [op, pb] ∧ pb ∈ undefinedPostbytes := by
  refine fun pb hpb => ⟨pokeBytes 0 [0x33, pb] base, 0x33, runs_instruction rfl rfl rfl, by decide,
    holds_pokeBytes base 0 _ ?_ rfl, ?_⟩
  · simp
  · revert pb
    decide

theorem witness_IllSizedTransfersRefused : ∀ w ∈ [((0x1E : Byte), (0x60 : Byte)), (0x1F, 0xF0), (0x1F, 0x07), (0x1E, 0x0C)],
    ∃ s : State, RunsInstruction s ∧ (w.1 = 0x1E ∨ w.1 = 0x1F) ∧ Holds s s.pc [w.1, w.2] ∧
      (w.2.toNat / 16 ∈ [6, 7, 12, 13, 14, 15] ∨ w.2.toNat % 16 ∈ [6, 7, 12, 13, 14, 15]) := by
  refine fun w hw => ⟨pokeBytes 0 [w.1, w.2] base, runs_instruction rfl rfl rfl, ?_, holds_pokeBytes base 0 _ ?_ rfl, ?_⟩
  · simp only [List.mem_cons, List.not_mem_nil, or_false] at hw
    rcases hw with rfl | rfl | rfl | rfl <;> decide
  · simp
  · simp only [List.mem_cons, List.not_mem_nil, or_false] at hw
    rcases hw with rfl | rfl | rfl | rfl <;> decide

theorem witness_WordStoreReadsBack : base.Writes 0xFFFF ∧ base.Writes (0xFFFF + 1) := ⟨rfl, rfl⟩

theorem witness_AccessesThatStop :
    let s : State := { devices with memMap := ⟨0x1000, 0x1000, .unmapped⟩ :: ⟨0x2000, 0x1000, .rom⟩ :: devices.memMap, mem := [(0x2000, 0x5A)] };
    s.kind 0x1000 = .unmapped ∧ s.kind 0x1FFF = .unmapped ∧ s.Reads 0x2000 0x5A ∧ s.byteAt 0x2FFF = none ∧
      s.kind 0x2FFF = .rom ∧ s.kind 0x0FFF = .ram ∧ s.byteAt 0x0FFF = none ∧
      Serves s .other 0x4000 ⟨1, false⟩ ∧ Serves s .plain 0x5FFF ⟨2, true⟩ ∧ s.kind 0x5FFF = .device ⟨2, true⟩ ∧
      s.kind 0x6000 = .ram :=
  ⟨rfl, rfl, ⟨.inr rfl, rfl⟩, rfl, rfl, rfl, rfl, ⟨rfl, .inr rfl⟩, ⟨rfl, .inl rfl⟩, rfl, rfl⟩

theorem witness_PullUndoesPush :
    Takes base (base.s - BitVec.ofNat 16 (stackBytes .s 0xFF base).length) (stackBytes .s 0xFF base).length ∧
    Takes base (base.u - BitVec.ofNat 16 (stackBytes .u 0x00 base).length) (stackBytes .u 0x00 base).length :=
  ⟨fun _ _ => rfl, fun _ _ => rfl⟩

theorem witness_ResetInputRunsResetSequence :
    let s : State := { base with inputs := [⟨false, false, false, true⟩], mem := [(0xFFFE, 0x12), (0xFFFF, 0x34)] };
    s.sample.resetLevel = true ∧ s.Reads16 0xFFFE 0x12 0x34 := ⟨rfl, ⟨.inl rfl, rfl⟩, ⟨.inl rfl, rfl⟩⟩

theorem witness_StepRunsDecodedInstruction : WellFormed (.lbrn 0) ∧
    decode [0x10, 0x21, 0x00, 0x00] = .ok (.lbrn 0) [] ∧ RunsInstruction topCode ∧
    Holds topCode topCode.pc [0x10, 0x21, 0x00, 0x00] :=
  ⟨by decide, by decide, runs_instruction rfl rfl rfl,
    holds_pokeBytes { base with pc := 0xFFFE } 0xFFFE _ (by decide) rfl⟩

/-- The premises of `Enters`, for an entry whose frame does not reach the vector. -/
theorem enters_premises (s : State) (row : EntryRow) (hm : s.memMap = []) :
    let bs := frameOf row s
    let sp := s.s - BitVec.ofNat 16 bs.length
    ∀ hi lo, (pokeBytes sp bs s).byteAt row.vector = some hi → (pokeBytes sp bs s).byteAt (row.vector + 1#16) = some lo →
      bs.length ≤ 12 →
      Takes s sp bs.length ∧ WithStored s sp bs (pokeBytes sp bs s) ∧ (pokeBytes sp bs s).Reads16 row.vector hi lo := by
  intro bs sp hi lo h1 h2 hl
  refine ⟨fun k _ => by simp [State.Writes, State.kind, hm, kindAt], withStored_pokeBytes s sp bs hl,
    ⟨.inl ?_, h1⟩, .inl ?_, h2⟩
  · simp [State.kind, hm, kindAt]
  · simp [State.kind, hm, kindAt]

/-- One state per interrupt, running or in SYNC, with the vectors written. -/
def vectored : State := { base with mem := [(0xFFF2, 0x10), (0xFFF3, 0x02), (0xFFF4, 0x10), (0xFFF5, 0x04), (0xFFF6, 0x10),
  (0xFFF7, 0x06), (0xFFF8, 0x10), (0xFFF9, 0x08), (0xFFFA, 0x10), (0xFFFB, 0x0A), (0xFFFC, 0x10), (0xFFFD, 0x0C)] }

theorem witness_HardwareInterruptsEnterHandlers :
    (∀ rs ∈ [RunState.running, .syncWait],
      let s : State := { vectored with runState := rs, nmiArmed := true, inputs := [⟨true, true, true, false⟩] };
      s.sample.resetLevel = false ∧ s.runState ≠ .cwaiWait ∧ Accepts s .nmi) ∧
    (let s : State := { vectored with inputs := [⟨true, true, true, false⟩] };
      s.sample.resetLevel = false ∧ s.runState ≠ .cwaiWait ∧ Accepts s .firq ∧
      ∃ m, Takes s (s.s - 3) 3 ∧ WithStored s (s.s - 3) (frameOf (entryRow .firq) s) m ∧ m.Reads16 0xFFF6 0x10 0x06) ∧
    (let s : State := { vectored with cc := 0x40, inputs := [⟨false, true, true, false⟩] };
      s.sample.resetLevel = false ∧ s.runState ≠ .cwaiWait ∧ Accepts s .irq ∧
      ∃ m, Takes s (s.s - 12) 12 ∧ WithStored s (s.s - 12) (frameOf (entryRow .irq) s) m ∧ m.Reads16 0xFFF8 0x10 0x08) := by
  refine ⟨?_, ⟨rfl, by decide, ?_, _, enters_premises _ (entryRow .firq) rfl _ _ rfl rfl (by decide)⟩,
    ⟨rfl, by decide, ?_, _, enters_premises _ (entryRow .irq) rfl _ _ rfl rfl (by decide)⟩⟩
  · intro rs hrs
    refine ⟨rfl, ?_, .inr ⟨rfl, rfl⟩⟩
    revert rs
    decide
  · exact ⟨by simp [NmiRequested, vectored, base, State.reset], rfl, rfl⟩
  · exact ⟨by simp [NmiRequested, vectored, base, State.reset, State.sample], by simp [State.flag, ccGet, Flag.bit], rfl, rfl⟩

theorem witness_CwaiWaitEndsWithoutStacking :
    (let s : State := { vectored with runState := .cwaiWait, inputs := [⟨false, false, true, false⟩] };
      s.sample.resetLevel = false ∧ s.runState = .cwaiWait ∧ Accepts s .irq ∧ s.Reads16 0xFFF8 0x10 0x08) ∧
    (let s : State := { vectored with runState := .cwaiWait };
      s.sample.resetLevel = false ∧ s.runState = .cwaiWait ∧ ∀ ev, ¬Accepts s ev) := by
  refine ⟨⟨rfl, rfl, ⟨?_, ?_, rfl, rfl⟩, ⟨.inl rfl, rfl⟩, ⟨.inl rfl, rfl⟩⟩, rfl, rfl, fun ev => ?_⟩
  · simp [NmiRequested, vectored, base, State.reset, State.sample]
  · simp [State.sample]
  · cases ev <;> simp [Accepts, NmiRequested, State.sample, vectored, base, State.reset, Inputs.inactive]

theorem witness_SyncWaitEndsOnAnyInput :
    (let s : State := { base with runState := .syncWait };
      s.sample.resetLevel = false ∧ s.runState = .syncWait ∧ ¬NmiRequested s ∧ s.sample.firqLevel = false ∧
        s.sample.irqLevel = false) ∧
    (let s : State := { base with runState := .syncWait, cc := 0x50, inputs := [⟨false, false, true, false⟩] };
      s.runState = .syncWait ∧ (NmiRequested s ∨ s.sample.firqLevel = true ∨ s.sample.irqLevel = true)) :=
  ⟨⟨rfl, rfl, by simp [NmiRequested, base, State.reset, State.sample, Inputs.inactive], rfl, rfl⟩, rfl, .inr (.inr rfl)⟩

theorem witness_DisarmedNmiIsLost :
    let s : State := { base with inputs := [⟨true, false, false, false⟩] };
    s.nmiArmed = false ∧ s.inputs = (⟨true, false, false, false⟩ : Inputs) :: [] := ⟨rfl, rfl⟩

theorem witness_StepKeepsInvariant : topCode.Inv ∧ ∃ t, step topCode = .next t := ⟨by unfold State.Inv; decide, _, rfl⟩

theorem witness_StepKeepsMapAndNonRam :
    let s : State := { topCode with memMap := [⟨0xFFFE, 2, .rom⟩] };
    (∃ t, step s = .next t) ∧ s.kind 0xFFFE ≠ .ram := ⟨⟨_, rfl⟩, by decide⟩

theorem witness_FullRamNeverFaults : ∃ s : State, s.FullRam := ⟨_, withMem_full zeroCells_read⟩

theorem witness_WellFormedInstructionsComplete : ∃ (i : Instr) (s : State), WellFormed i ∧ s.FullRam :=
  ⟨.swi, _, by decide, withMem_full zeroCells_read⟩

theorem witness_OnlyArmSetArmsNmi : (∃ t, exec (.lds (.imm 0x4000)) base = .next t) ∧ ∃ t, exec .nop base = .next t :=
  ⟨⟨_, rfl⟩, ⟨_, rfl⟩⟩

theorem witness_OnlyWaitsStopRunning : (∃ t, exec (.cwai 0xFF) base = .next t) ∧ ∃ t, exec .sync base = .next t :=
  ⟨⟨_, rfl⟩, _, rfl⟩

theorem witness_OnlyCcWritersChangeMasks : (∃ t, exec (.puls 0x00) base = .next t) ∧ ¬mayChangeMasks (.puls 0x00) := by
  refine ⟨⟨_, rfl⟩, ?_⟩
  simp [mayChangeMasks]

theorem witness_OnlyListedWriteDp : (∃ t, exec (.pulu 0x00) base = .next t) ∧ ¬mayChangeDp (.pulu 0x00) := by
  refine ⟨⟨_, rfl⟩, ?_⟩
  simp [mayChangeDp]

theorem witness_NonStoringKeepMemory : (∃ t, exec (.leax (.form .x .postInc1 false)) base = .next t) ∧
    mayStore (.leax (.form .x .postInc1 false)) = false := ⟨⟨_, rfl⟩, rfl⟩

theorem witness_IndirectFormsReadPointer :
    (IndexForm.postInc2.allowsIndirect = true ∧ ∃ t, indexedAddress (.form .x .postInc2 false) ram = .next (0x2000, t) ∧
      t.Reads16 0x2000 0x30 0x00) ∧
    (∃ t, indexedAddress (.pcr8 0x80 false) { ram with pc := 0x2080 } = .next (0x2000, t) ∧ t.Reads16 0x2000 0x30 0x00) ∧
    (∃ t, indexedAddress (.pcr16 0xFFFF false) { ram with pc := 0x2001 } = .next (0x2000, t) ∧ t.Reads16 0x2000 0x30 0x00) ∧
    ram.Reads16 0x2000 0x30 0x00 :=
  ⟨⟨rfl, _, rfl, ⟨.inl rfl, rfl⟩, ⟨.inl rfl, rfl⟩⟩, ⟨_, rfl, ⟨.inl rfl, rfl⟩, ⟨.inl rfl, rfl⟩⟩,
    ⟨_, rfl, ⟨.inl rfl, rfl⟩, ⟨.inl rfl, rfl⟩⟩, ⟨.inl rfl, rfl⟩, ⟨.inl rfl, rfl⟩⟩

/-- An address, and an 8-bit and a 16-bit source, in memory: what the statements on instructions with an operand ask for. -/
theorem witness_SourceOperandsReadMemory :
    (∃ t, effectiveAddress (.indexed (.form .x .postInc2 false)) ram = .next (0x2000, t) ∧ t.Reads 0x2000 0x30 ∧
      t.Reads16 0x2000 0x30 0x00) ∧
    (∃ t, source8 .other (.mem (.indexed (.form .x .postInc1 true))) ram = .refused t) ∧
    (∃ t, source8 .other (.mem (.indexed (.form .x .postInc2 true))) ram = .next (0x5A, t)) ∧
    ∃ t, source16 .other (.mem (.indexed (.form .x .preDec2 false))) { ram with x := 0x3002 } = .next (0x5AA5, t) :=
  ⟨⟨_, rfl, ⟨.inl rfl, rfl⟩, ⟨.inl rfl, rfl⟩, ⟨.inl rfl, rfl⟩⟩, ⟨_, rfl⟩, ⟨_, rfl⟩, ⟨_, rfl⟩⟩

theorem witness_AddAndAdcGiveSum : (Instr.adca, Reg8.a, true) ∈ byteAdditions ∧
    (∃ t, source8 .other (.mem (.direct 0x00)) ram = .next (0x30, t)) ∧ ∃ t, source8 .other (.imm 0xFF) ram = .next (0xFF, t) :=
  ⟨by simp [byteAdditions], ⟨_, rfl⟩, ⟨_, rfl⟩⟩

theorem witness_SubSbcCmpGiveDifference : (Instr.sbcb, Reg8.b, true) ∈ byteSubtractions ∧
    ∃ t, source8 .other (.mem (.extended 0x3001)) ram = .next (0xA5, t) := ⟨by simp [byteSubtractions], _, rfl⟩

theorem witness_AdddSubdGiveDouble : ∃ t, source16 .other (.mem (.extended 0x3000)) ram = .next (0x5AA5, t) := ⟨_, rfl⟩

theorem witness_WordComparesSetFlags : (Instr.cmpx, Reg16.x) ∈ wordCompares ∧
    ∃ t, source16 .other (.mem (.indexed (.form .x .postInc2 false))) ram = .next (0x3000, t) := ⟨by simp [wordCompares], _, rfl⟩

theorem witness_AddThenDaaIsDecimalSum : (9 : Nat) < 10 ∧ (0 : Nat) < 10 ∧
    ({ base with a := 0x99, cc := 0x01 } : State).a.toNat = 16 * 9 + 9 := by decide

theorem witness_LogicActsBitByBit : (∃ p, (Instr.eora, Reg8.a, p) ∈ byteLogic) ∧
    ∃ t, source8 .other (.mem (.indexed (.extInd 0x2000))) ram = .next (0x5A, t) := ⟨⟨fun p q => p != q, by simp [byteLogic]⟩, _, rfl⟩

theorem witness_AccumulatorShiftsAndUnaries : ⟨.neg, .nega, .negb, negEffect⟩ ∈ unaryRows := by simp [unaryRows]

theorem witness_MemoryShiftsAndUnaries_device : ∃ v, Serves devices .other 0x4FFF ⟨1, false⟩ ∧
    read8 .other 0x4FFF devices = .next (v, Reached devices ⟨1, false⟩ 0x4FFF none) := ⟨_, ⟨rfl, .inr rfl⟩, rfl⟩

theorem witness_MemoryShiftsAndUnaries : ⟨.ror, .rora, .rorb, rorEffect⟩ ∈ unaryRows ∧
    ∃ t, effectiveAddress (.indexed (.form .x .postInc1 false)) ram = .next (0x2000, t) ∧ t.Reads 0x2000 0x30 ∧
      t.Writes 0x2000 := ⟨by simp [unaryRows], _, rfl, ⟨.inl rfl, rfl⟩, rfl⟩

theorem witness_ClrWritesZero : (∃ t, effectiveAddress (.direct 0xFF) base = .next (0x00FF, t) ∧ t.Writes 0x00FF) ∧
    ∃ t, effectiveAddress (.extended 0x4000) devices = .next (0x4000, t) ∧ Serves t .other 0x4000 ⟨1, false⟩ :=
  ⟨⟨_, rfl, rfl⟩, _, rfl, rfl, .inr rfl⟩

theorem witness_TstSetsNAndZ : (∃ t, effectiveAddress (.direct 0x00) ram = .next (0x2000, t) ∧
      read8 .other 0x2000 t = .next (0x30, t)) ∧
    ∃ t v w, effectiveAddress (.extended 0x4000) devices = .next (0x4000, t) ∧ read8 .other 0x4000 t = .next (v, w) :=
  ⟨⟨_, rfl, rfl⟩, _, _, _, rfl, rfl⟩

theorem witness_LoadsGiveOperand : (∃ t, source8 .plain (.mem (.direct 0x01)) ram = .next (0x00, t)) ∧
    (Instr.lds, Reg16.s, true) ∈ wordLoads ∧ ∃ t, source16 .plain (.imm 0x8000) ram = .next (0x8000, t) :=
  ⟨⟨_, rfl⟩, by simp [wordLoads], _, rfl⟩

theorem witness_StoresWriteRegister : (∃ t, effectiveAddress (.extended 0xFFFF) ram = .next (0xFFFF, t) ∧ t.Writes 0xFFFF ∧
      t.Writes (0xFFFF + 1)) ∧ (Instr.stx, Reg16.x) ∈ wordStores ∧
    ∃ t, effectiveAddress (.extended 0x5FFE) devices = .next (0x5FFE, t) ∧ t.kind 0x5FFE = .device ⟨2, true⟩ ∧
      t.kind (0x5FFE + 1) = .device ⟨2, true⟩ := ⟨⟨_, rfl, rfl, rfl⟩, by simp [wordStores], _, rfl, rfl, rfl⟩

theorem witness_LeaLoadsEffectiveAddress : ∃ t, indexedAddress (.form .x .postInc2 true) ram = .next (0x3000, t) := ⟨_, rfl⟩

theorem witness_PushLaysOutRegisters : Takes base (base.s - 12) (stackBytes .s 0xFF base).length ∧
    Takes base base.u (stackBytes .u 0x00 base).length := ⟨fun _ _ => rfl, fun _ _ => rfl⟩

theorem witness_PullLoadsRegisters : ∃ s : State, Holds s (s.sp .s) (stackBytes .s 0xFF base) :=
  ⟨_, holds_pokeBytes { base with s := 0xFFFA } 0xFFFA (stackBytes .s 0xFF base) (by decide) rfl⟩

theorem witness_BranchesFollowConditions : ∃ row ∈ branchRows, row.taken true false true true = true :=
  ⟨_, by simp [branchRows]; exact .inl rfl, rfl⟩

theorem witness_CallsPushReturnAddress : base.Writes (base.s - 1) ∧ base.Writes (base.s - 2) ∧
    ∃ t, effectiveAddress (.indexed (.form .s .postInc2 true)) { ram with s := 0x2000 } = .next (0x3000, t) ∧
      t.Writes (t.s - 1) ∧ t.Writes (t.s - 2) := ⟨rfl, rfl, _, rfl, rfl, rfl⟩

theorem witness_JmpAndRtsLoadPc : (∃ t, effectiveAddress (.extended 0xFFFF) ram = .next (0xFFFF, t)) ∧
    ({ ram with s := 0x3000 } : State).Reads16 0x3000 0x5A 0xA5 := ⟨⟨_, rfl⟩, ⟨.inl rfl, rfl⟩, ⟨.inl rfl, rfl⟩⟩

theorem witness_SoftwareInterruptsEnterHandlers : ∀ ev ∈ [Event.swi, .swi2, .swi3], ∃ m hi lo,
    Takes vectored (vectored.s - 12) 12 ∧ WithStored vectored (vectored.s - 12) (frameOf (entryRow ev) vectored) m ∧
      m.Reads16 (entryRow ev).vector hi lo := by
  intro ev hev
  have h : ev = .swi ∨ ev = .swi2 ∨ ev = .swi3 := by simpa using hev
  rcases h with rfl | rfl | rfl
  · exact ⟨_, _, _, enters_premises vectored (entryRow .swi) rfl _ _ rfl rfl (by decide)⟩
  · exact ⟨_, _, _, enters_premises vectored (entryRow .swi2) rfl _ _ rfl rfl (by decide)⟩
  · exact ⟨_, _, _, enters_premises vectored (entryRow .swi3) rfl _ _ rfl rfl (by decide)⟩

theorem witness_RtiPullsFrameByE :
    (∃ s : State, Holds s s.s (stackBytes .s 0xFF { base with cc := 0x80 })) ∧
    ∃ s : State, Holds s s.s (stackBytes .s 0x81 base) :=
  ⟨⟨_, holds_pokeBytes { base with s := 0xFFFA } 0xFFFA (stackBytes .s 0xFF { base with cc := 0x80 }) (by decide) rfl⟩,
    ⟨_, holds_pokeBytes { base with s := 0xFFFE } 0xFFFE (stackBytes .s 0x81 base) (by decide) rfl⟩⟩

theorem witness_RtiUndoesSoftwareInterrupt :
    ∀ i ∈ [Instr.swi, .swi2, .swi3], (∃ t, exec i vectored = .next t) ∧ Takes vectored (vectored.s - 12) 12 := by
  intro i hi
  have h : i = .swi ∨ i = .swi2 ∨ i = .swi3 := by simpa using hi
  rcases h with rfl | rfl | rfl <;> exact ⟨⟨_, rfl⟩, fun _ _ => rfl⟩

theorem witness_CwaiAndSyncWait :
    let bs := stackBytes .s 0xFF { base with cc := (base.cc &&& 0x00) ||| 0x80#8 }
    Takes base (base.s - BitVec.ofNat 16 bs.length) bs.length := fun _ _ => rfl

theorem witness_AliasesRunAsPrimary : WellFormed (.lsl (.indexed (.form .x .postInc2 true))) ∧
    WellFormed (.lbhs 0xFFFF) ∧ (Instr.bhs 0x80).canonical ≠ .bhs 0x80 := by decide

end Sys2Proof.Tests
end

/-! # What every operation keeps, and where it may stop

One pass over the operations for the statements about scope: what a next state keeps (`Keeps`), and which stops are
left when RAM holds a byte everywhere (`Sound`). -/

namespace Sys2Proof.Machine

section Keeping
variable {β : Type} {f : State → β} {s t u : State}

/-- Only RAM has changed, no byte has lost its value, and what `f` reads from the state is as it was. -/
structure Keeps (f : State → β) (s t : State) : Prop where
  stores : StoresOnly s t
  holds : ∀ addr v, s.byteAt addr = some v → ∃ w, t.byteAt addr = some w
  field : f t = f s

theorem Keeps.of_eq (hm : t.mem = s.mem) (hk : t.memMap = s.memMap) (hp : t.policies = s.policies)
    (hf : f t = f s) : Keeps f s t :=
  ⟨.of_eq hm hk hp, fun q v h => ⟨v, by rw [State.byteAt_congr hm, h]⟩, hf⟩

theorem Keeps.refl (f : State → β) (s : State) : Keeps f s s := .of_eq rfl rfl rfl rfl

theorem Keeps.trans (h1 : Keeps f s t) (h2 : Keeps f t u) : Keeps f s u where
  stores := h1.stores.trans h2.stores
  holds q v h := by
    obtain ⟨w, hw⟩ := h1.holds q v h
    exact h2.holds q w hw
  field := h2.field.trans h1.field

theorem Keeps.poke {p : Word} {v : Byte} (h : s.kind p = .ram) (hf : f (s.poke p v) = f s) :
    Keeps f s (s.poke p v) where
  stores := .poke h v
  holds q w hw := by
    rw [State.byteAt_poke]
    split
    · exact ⟨v, rfl⟩
    · exact ⟨w, hw⟩
  field := hf

/-- RAM that holds a byte everywhere stays so. -/
theorem Keeps.fullRam (h : Keeps f s t) (hs : s.FullRam) : t.FullRam := by
  intro q
  obtain ⟨hw, v, -, hv⟩ := hs q
  have hk : t.kind q = .ram := (State.kind_congr h.stores.map q).trans hw
  obtain ⟨w, hw⟩ := h.holds q v hv
  exact ⟨hk, w, .inl hk, hw⟩

/-- What an instruction writes only in a few cases: `nmi_armed`, `nmi_pending`, `run_state`, the inputs to come. -/
def State.control (s : State) : Bool × Bool × RunState × List Inputs :=
  (s.nmiArmed, s.nmiPending, s.runState, s.inputs)

/-- Nothing is asked of the state beside its storage. -/
def State.nothing (_ : State) : Unit := ()

theorem Keeps.storage (h : Keeps f s t) : Keeps State.nothing s t := ⟨h.stores, h.holds, rfl⟩

theorem Keeps.of_flagsOnly (h : FlagsOnly s t) : Keeps State.control s t :=
  .of_eq h.mem h.memMap h.policies (by simp [State.control, h.armed, h.pending, h.runState, h.inputs])

theorem Keeps.set8 (s : State) (r : Reg8) (v : Byte) : Keeps State.control s (s.set8 r v) :=
  .of_eq (by simp) (by simp) (by simp) (by simp [State.control])

theorem Keeps.set16 (s : State) (r : Reg16) (v : Word) : Keeps State.control s (s.set16 r v) :=
  .of_eq (by simp) (by simp) (by simp) (by simp [State.control])

theorem Keeps.setSp (s : State) (r : StackReg) (v : Word) : Keeps State.control s (s.setSp r v) :=
  .of_eq (by simp) (by simp) (by simp) (by simp [State.control])

/-- Computing an address with its automatic increment or decrement (R153 to R156). -/
theorem Keeps.formAddress (r : IndexReg) (k : IndexForm) (s : State) :
    Keeps State.control s (formAddress r k s).2 := by
  rcases formAddress_state r k false s with h | ⟨v, h, -⟩
  · rw [h]
    exact .refl _ s
  · rw [h]
    exact .of_eq (by simp) (by simp) (by simp) (by simp [State.control])

theorem Keeps.setMasks (ev : Event) (s : State) : Keeps State.control s (ev.setMasks s) := by
  cases ev with
  | nmi | swi | firq => exact .of_flagsOnly ((FlagsOnly.setFlag s .f true).trans (.setFlag _ .i true))
  | irq => exact .of_flagsOnly (.setFlag s .i true)
  | swi2 | swi3 => exact .refl _ s

end Keeping

/-! ## Stops -/

/-- Why an operation answers no value. -/
abbrev Stop := Fault ⊕ Refusal

/-- The reason an operation stopped, if it did. -/
def Result.stop {α : Type} : Result α → Option Stop
  | .next _ => none
  | .fault r => some (.inl r)
  | .refused r => some (.inr r)

/-- The refusals of a term without an encoding or a meaning, where `wf` is false (R161, R311, R312). -/
def illFormed (wf : Bool) (e : Stop) : Prop :=
  wf = false ∧ e ∈ [Sum.inr .undefinedPostbyte, .inr .tfrSize, .inr .exgSize]

/-- The stops a step has on full RAM: an undefined encoding or a size mismatch (R114, R161, R311 to R313), an undefined
opcode as `UNDEF_OPCODE_POLICY` says. -/
def undefinedEncoding (policy : Config.UndefPolicy) (e : Stop) : Prop :=
  (policy = .fault ∧ e = .inl .undefinedOpcode) ∨
    e ∈ [Sum.inr .undefinedOpcode, .inr .undefinedPostbyte, .inr .undefinedRegisterCode, .inr .tfrSize, .inr .exgSize]

theorem illFormed.undefinedEncoding {wf : Bool} {e : Stop} (h : illFormed wf e) (policy : Config.UndefPolicy) :
    undefinedEncoding policy e := by
  obtain ⟨-, he⟩ := h
  simp only [List.mem_cons, List.not_mem_nil, or_false] at he
  rcases he with rfl | rfl | rfl <;> simp [Machine.undefinedEncoding]

/-- An operation from `s`: the state `out x` of its answer `x` stands in relation `R` to `s`, and on RAM that holds a byte
everywhere it stops with the reasons of `E` alone. -/
structure Sound {α : Type} (E : Stop → Prop) (R : State → State → Prop) (out : α → State) (s : State)
    (o : Result α) : Prop where
  next : ∀ x, o = .next x → R s (out x)
  stop : s.FullRam → ∀ e, o.stop = some e → E e

section Composition
variable {α γ β : Type} {E E' : Stop → Prop} {R R' : State → State → Prop} {f : State → β} {out : α → State}
  {out' : γ → State} {s t : State} {o : Result α}

theorem Sound.of_next {x : α} (h : R s (out x)) : Sound E R out s (.next x) where
  next y hy := by
    cases hy
    exact h
  stop _ e he := by cases he

theorem Sound.of_refused {r : Refusal} (h : E (.inr r)) : Sound E R out s (.refused r) where
  next y hy := by cases hy
  stop _ e he := by
    cases he
    exact h

theorem Sound.mono (h : Sound E R out s o) (hE : ∀ e, E e → E' e) (hR : ∀ t, R s t → R' s t) :
    Sound E' R' out s o :=
  ⟨fun x hx => hR _ (h.next x hx), fun hs e he => hE e (h.stop hs e he)⟩

/-- One operation after the other. -/
theorem Sound.andThen {k : α → Result γ} (h : Sound E (Keeps f) out s o)
    (hk : ∀ x, o = .next x → Sound E (Keeps f) out' (out x) (k x)) :
    Sound E (Keeps f) out' s (o.andThen k) where
  next y hy := by
    obtain ⟨x, hx, hy⟩ := Result.andThen_eq_next.1 hy
    exact (h.next x hx).trans ((hk x hx).next y hy)
  stop hs e he := by
    cases ho : o with
    | next x =>
      subst ho
      exact (hk x rfl).stop ((h.next x rfl).fullRam hs) e he
    | fault r => exact h.stop hs e (by rw [← he, ho]; rfl)
    | refused r => exact h.stop hs e (by rw [← he, ho]; rfl)

/-- A last change after an operation that cannot stop any more. -/
theorem Sound.map {k : α → γ} (h : Sound E R out s o) (hk : ∀ x, R s (out x) → R' s (out' (k x))) :
    Sound E R' out' s (o.andThen fun x => .next (k x)) where
  next y hy := by
    obtain ⟨x, hx, hy⟩ := Result.andThen_eq_next.1 hy
    cases hy
    exact hk x (h.next x hx)
  stop hs e he := by
    cases o with
    | next x => cases he
    | fault r => exact h.stop hs e he
    | refused r => exact h.stop hs e he

/-- A change of the state before an operation. -/
theorem Sound.after (h : Sound E (Keeps f) out t o) (ht : Keeps f s t) : Sound E (Keeps f) out s o :=
  ⟨fun x hx => ht.trans (h.next x hx), fun hs => h.stop (ht.fullRam hs)⟩

end Composition

/-! ## Memory accesses -/

section Operations
variable {E : Stop → Prop}

theorem read8_sound (acc : Config.Access) (addr : Word) (s : State) :
    Sound E (Keeps State.control) Prod.snd s (read8 acc addr s) where
  next x hx := by
    obtain ⟨log, h⟩ := read8_state (v := x.1) (t := x.2) hx
    rw [h]
    exact .of_eq rfl rfl rfl rfl
  stop hs e he := by
    obtain ⟨-, v, hv⟩ := hs addr
    rw [read8_of_reads acc hv] at he
    cases he

theorem read16_sound (acc : Config.Access) (addr : Word) (s : State) :
    Sound E (Keeps State.control) Prod.snd s (read16 acc addr s) :=
  (read8_sound acc addr s).andThen fun x _ =>
    (read8_sound acc (addr + 1#16) x.2).andThen fun y _ => .of_next (.refl _ y.2)

theorem write8_sound (acc : Config.Access) (addr : Word) (v : Byte) (s : State) :
    Sound E (Keeps State.control) id s (write8 acc addr v s) where
  next t ht := by
    rcases write8_eq_next.1 ht with ⟨hk, rfl⟩ | ⟨d, -, -, rfl⟩
    · exact .poke hk rfl
    · exact .of_eq rfl rfl rfl rfl
  stop hs e he := by
    rw [write8_of_ram acc v (hs addr).1] at he
    cases he

theorem write16_sound (acc : Config.Access) (addr v : Word) (s : State) :
    Sound E (Keeps State.control) id s (write16 acc addr v s) :=
  (write8_sound acc addr (hi8 v) s).andThen fun t _ => write8_sound acc (addr + 1#16) (lo8 v) t

/-! ## Stacks -/

theorem push8_sound (r : StackReg) (v : Byte) (s : State) :
    Sound E (Keeps State.control) id s (push8 r v s) :=
  (write8_sound .other _ v _).after (.setSp s r _)

theorem push16_sound (r : StackReg) (v : Word) (s : State) :
    Sound E (Keeps State.control) id s (push16 r v s) :=
  (push8_sound r (lo8 v) s).andThen fun t _ => push8_sound r (hi8 v) t

theorem pull8_sound (r : StackReg) (s : State) :
    Sound E (Keeps State.control) Prod.snd s (pull8 r s) :=
  (read8_sound .other _ s).andThen fun x _ => .of_next (.setSp x.2 r _)

theorem pull16_sound (r : StackReg) (s : State) :
    Sound E (Keeps State.control) Prod.snd s (pull16 r s) :=
  (pull8_sound r s).andThen fun x _ => (pull8_sound r x.2).andThen fun y _ => .of_next (.refl _ y.2)

theorem pushItem_sound (r : StackReg) (it : StackItem) (s : State) :
    Sound E (Keeps State.control) id s (pushItem r it s) := by
  cases it with
  | cc | a | b | dp => exact push8_sound r _ s
  | x | y | other | pc => exact push16_sound r _ s

theorem pullItem_sound (r : StackReg) (it : StackItem) (s : State) :
    Sound E (Keeps State.control) id s (pullItem r it s) := by
  cases it with
  | cc | a | b | dp => exact (pull8_sound r s).andThen fun x _ => .of_next (.of_eq rfl rfl rfl rfl)
  | x | y | pc => exact (pull16_sound r s).andThen fun x _ => .of_next (.of_eq rfl rfl rfl rfl)
  | other => exact (pull16_sound r s).andThen fun x _ => .of_next (.setSp x.2 r.other _)

theorem pushItems_sound (r : StackReg) (mask : Byte) (items : List StackItem) (s : State) :
    Sound E (Keeps State.control) id s (pushItems r mask items s) := by
  induction items generalizing s with
  | nil => exact .of_next (.refl _ s)
  | cons it rest ih =>
    rw [pushItems]
    split
    · exact (pushItem_sound r it s).andThen fun t _ => ih t
    · exact ih s

theorem pullItems_sound (r : StackReg) (mask : Byte) (items : List StackItem) (s : State) :
    Sound E (Keeps State.control) id s (pullItems r mask items s) := by
  induction items generalizing s with
  | nil => exact .of_next (.refl _ s)
  | cons it rest ih =>
    rw [pullItems]
    split
    · exact (pullItem_sound r it s).andThen fun t _ => ih t
    · exact ih s

theorem pushRegs_sound (r : StackReg) (mask : Byte) (s : State) :
    Sound E (Keeps State.control) id s (pushRegs r mask s) := pushItems_sound r mask pushOrder s

theorem pullRegs_sound (r : StackReg) (mask : Byte) (s : State) :
    Sound E (Keeps State.control) id s (pullRegs r mask s) := pullItems_sound r mask pullOrder s

/-! ## Operands: a term whose postbyte is undefined is refused (R161) -/

theorem indirect_sound (ind : Bool) (ea1 : Word) (s : State) :
    Sound E (Keeps State.control) Prod.snd s (indirect ind ea1 s) := by
  cases ind with
  | false => exact .of_next (.refl _ s)
  | true => exact read16_sound .other ea1 s

theorem indexedAddress_sound (p : Indexed) (s : State) :
    Sound (illFormed p.wellFormed) (Keeps State.control) Prod.snd s (indexedAddress p s) := by
  cases p with
  | off5 r n => exact .of_next (.refl _ s)
  | form r k ind =>
    simp only [indexedAddress]
    split
    next h => exact .of_refused ⟨by simp_all [Indexed.wellFormed], by simp⟩
    next => exact (indirect_sound ind _ _).after (.formAddress r k s)
  | pcr8 n ind => exact indirect_sound ind _ s
  | pcr16 nn ind => exact indirect_sound ind _ s
  | extInd nn => exact indirect_sound true nn s

theorem effectiveAddress_sound (m : Mem) (s : State) :
    Sound (illFormed m.wellFormed) (Keeps State.control) Prod.snd s (effectiveAddress m s) := by
  cases m with
  | direct n => exact .of_next (.refl _ s)
  | indexed p => exact indexedAddress_sound p s
  | extended nn => exact .of_next (.refl _ s)

theorem source8_sound (acc : Config.Access) (src : Src8) (s : State) :
    Sound (illFormed src.wellFormed) (Keeps State.control) Prod.snd s (source8 acc src s) := by
  cases src with
  | imm n => exact .of_next (.refl _ s)
  | mem m => exact (effectiveAddress_sound m s).andThen fun x _ => read8_sound acc x.1 x.2

theorem source16_sound (acc : Config.Access) (src : Src16) (s : State) :
    Sound (illFormed src.wellFormed) (Keeps State.control) Prod.snd s (source16 acc src s) := by
  cases src with
  | imm n => exact .of_next (.refl _ s)
  | mem m => exact (effectiveAddress_sound m s).andThen fun x _ => read16_sound acc x.1 x.2

/-! ## Shapes of instructions, for operations that write flags alone -/

theorem operate8_sound {op : Byte → Byte → State → Byte × State} (hop : ∀ a v s, FlagsOnly s (op a v s).2)
    (acc : Config.Access) (r : Reg8) (src : Src8) (s : State) :
    Sound (illFormed src.wellFormed) (Keeps State.control) id s (operate8 acc r src op s) :=
  (source8_sound acc src s).andThen fun _ _ => .of_next ((Keeps.of_flagsOnly (hop _ _ _)).trans (.set8 _ r _))

theorem compare8_sound {op : Byte → Byte → State → Byte × State} (hop : ∀ a v s, FlagsOnly s (op a v s).2)
    (r : Reg8) (src : Src8) (s : State) :
    Sound (illFormed src.wellFormed) (Keeps State.control) id s (compare8 r src op s) :=
  (source8_sound .other src s).andThen fun _ _ => .of_next (.of_flagsOnly (hop _ _ _))

theorem operate16_sound {op : Word → Word → State → Word × State} (hop : ∀ a v s, FlagsOnly s (op a v s).2)
    (acc : Config.Access) (r : Reg16) (src : Src16) (s : State) :
    Sound (illFormed src.wellFormed) (Keeps State.control) id s (operate16 acc r src op s) :=
  (source16_sound acc src s).andThen fun _ _ => .of_next ((Keeps.of_flagsOnly (hop _ _ _)).trans (.set16 _ r _))

theorem compare16_sound {op : Word → Word → State → Word × State} (hop : ∀ a v s, FlagsOnly s (op a v s).2)
    (r : Reg16) (src : Src16) (s : State) :
    Sound (illFormed src.wellFormed) (Keeps State.control) id s (compare16 r src op s) :=
  (source16_sound .other src s).andThen fun _ _ => .of_next (.of_flagsOnly (hop _ _ _))

theorem modifyReg_sound {op : Byte → State → Byte × State} (hop : ∀ v s, FlagsOnly s (op v s).2) (r : Reg8)
    (s : State) : Sound E (Keeps State.control) id s (modifyReg r op s) :=
  .of_next ((Keeps.of_flagsOnly (hop _ _)).trans (.set8 _ r _))

theorem modifyMem_sound {op : Byte → State → Byte × State} (hop : ∀ v s, FlagsOnly s (op v s).2) (m : Mem)
    (s : State) : Sound (illFormed m.wellFormed) (Keeps State.control) id s (modifyMem m op s) :=
  (effectiveAddress_sound m s).andThen fun x _ => (read8_sound .other x.1 x.2).andThen fun y _ =>
    (write8_sound .other x.1 _ _).after (.of_flagsOnly (hop y.1 y.2))

theorem store8_sound (r : Reg8) (m : Mem) (s : State) :
    Sound (illFormed m.wellFormed) (Keeps State.control) id s (store8 r m s) :=
  (effectiveAddress_sound m s).andThen fun x _ =>
    (write8_sound .plain x.1 _ _).after (.of_flagsOnly (.setNZ0 x.2 _))

theorem store16_sound (r : Reg16) (m : Mem) (s : State) :
    Sound (illFormed m.wellFormed) (Keeps State.control) id s (store16 r m s) :=
  (effectiveAddress_sound m s).andThen fun x _ =>
    (write16_sound .plain x.1 _ _).after (.of_flagsOnly (.setNZ0 x.2 _))

theorem loadAddress_sound (r : Reg16) (p : Indexed) (s : State) :
    Sound (illFormed p.wellFormed) (Keeps State.control) id s (loadAddress r p s) :=
  (indexedAddress_sound p s).andThen fun x _ => .of_next (.set16 x.2 r x.1)

theorem loadAddressZ_sound (r : Reg16) (p : Indexed) (s : State) :
    Sound (illFormed p.wellFormed) (Keeps State.control) id s (loadAddressZ r p s) :=
  (indexedAddress_sound p s).andThen fun x _ =>
    .of_next ((Keeps.set16 x.2 r x.1).trans (.of_flagsOnly (.setFlag _ .z _)))

theorem branchIf_sound (k : Cond) (off : Word) (s : State) :
    Sound E (Keeps State.control) id s (branchIf k off s) := by
  rw [branchIf]
  split
  · exact .of_next (.of_eq rfl rfl rfl rfl)
  · exact .of_next (.refl _ s)

theorem branchSubroutine_sound (off : Word) (s : State) :
    Sound E (Keeps State.control) id s (branchSubroutine off s) :=
  (push16_sound .s s.pc s).andThen fun _ _ => .of_next (.of_eq rfl rfl rfl rfl)

/-! ## Interrupts. `g` reads of the control fields what the entry leaves: an NMI clears its latch. -/

section Entry
variable {δ : Type} {g : State → δ}

theorem enterVector_sound (hg : ∀ s t, Keeps State.control s t → g t = g s) {ev : Event}
    (hl : ∀ s, g (ev.clearLatch s) = g s) (s : State) : Sound E (Keeps g) id s (enterVector ev s) := by
  have hread := read16_sound (E := E) .other ev.vector (ev.clearLatch (ev.setMasks s))
  have hentry : Keeps g s (ev.clearLatch (ev.setMasks s)) :=
    .of_eq (by cases ev <;> rfl) (by cases ev <;> rfl) (by cases ev <;> rfl)
      ((hl _).trans (hg _ _ (.setMasks ev s)))
  refine (hread.map fun x hx => ?_).after hentry
  have hpc : Keeps State.control (ev.clearLatch (ev.setMasks s)) { x.2 with pc := x.1 } :=
    hx.trans (.of_eq rfl rfl rfl rfl)
  exact ⟨hpc.stores, hpc.holds, hg _ _ hpc⟩

theorem takeInterrupt_sound (hg : ∀ s t, Keeps State.control s t → g t = g s) {ev : Event}
    (hl : ∀ s, g (ev.clearLatch s) = g s) (s : State) : Sound E (Keeps g) id s (takeInterrupt ev s) := by
  have hpush := (pushRegs_sound (E := E) .s ev.frameMask _).after (.of_flagsOnly (.setFlag s .e ev.entire))
  exact (hpush.mono (fun _ h => h) fun t ht => ⟨ht.stores, ht.holds, hg _ _ ht⟩).andThen fun t _ =>
    enterVector_sound hg hl t

end Entry

theorem returnFromInterrupt_sound (s : State) :
    Sound E (Keeps State.control) id s (returnFromInterrupt s) :=
  (pullRegs_sound .s 0x01 s).andThen fun t _ => pullRegs_sound .s _ t

end Operations

end Sys2Proof.Machine

/-! # Every instruction -/

namespace Sys2Proof.Machine

/-- The instructions that arm NMI, as a test on `NMI_ARM_SET`; `armsNmi_iff` ties it to `armsNmi`. -/
def armedBy : Instr → Config.NmiArmSet → Bool
  | .lds _, set => set.lds
  | .leas _, set => set.leas
  | .tfr _ r2, set => set.tfr && r2 == .wide .s
  | .exg r1 r2, set => set.exg && (r1 == .wide .s || r2 == .wide .s)
  | .pulu mask, set => set.pulu && mask.getLsbD 6
  | _, _ => false

/-- `run_state` after an instruction: CWAI and SYNC wait (R394, R395). -/
def runStateAfter : Instr → RunState → RunState
  | .cwai _, _ => .cwaiWait
  | .sync, _ => .syncWait
  | _, r => r

/-- The control fields after an instruction. -/
def controlAfter (i : Instr) (s : State) : Bool × Bool × RunState × List Inputs :=
  (s.nmiArmed || armedBy i s.policies.nmiArm, s.nmiPending, runStateAfter i s.runState, s.inputs)

/-- What every instruction leaves: of memory and the parameters of R6 what any operation leaves, and control fields
that change as `controlAfter` says. -/
structure Executed (i : Instr) (s t : State) : Prop where
  storage : Keeps State.nothing s t
  control : t.control = controlAfter i s

section Shapes
variable {i : Instr} {s t : State}

theorem Executed.nmiArmed (h : Executed i s t) : t.nmiArmed = (s.nmiArmed || armedBy i s.policies.nmiArm) :=
  congrArg Prod.fst h.control

theorem Executed.nmiPending (h : Executed i s t) : t.nmiPending = s.nmiPending :=
  congrArg (fun c => c.2.1) h.control

/-- Most instructions leave the control fields alone. -/
theorem Keeps.executed (h : Keeps State.control s t) (ha : armedBy i = fun _ => false)
    (hr : runStateAfter i = id) : Executed i s t :=
  ⟨h.storage, by rw [h.field, controlAfter, ha, hr, Bool.or_false]; rfl⟩

/-- An instruction of `NMI_ARM_SET` ends by arming NMI (R404). -/
theorem Keeps.executed_armNmi (h : Keeps State.control s t) {writer : Config.NmiArmSet → Bool}
    (ha : armedBy i = writer) (hr : runStateAfter i = id) : Executed i s (t.armNmi writer) := by
  refine ⟨h.storage.trans (.of_eq rfl rfl rfl rfl), ?_⟩
  have hf := h.field
  simp only [State.control, Prod.mk.injEq] at hf
  obtain ⟨harm, hpend, hrun, hin⟩ := hf
  simp [State.control, controlAfter, State.armNmi, ha, hr, harm, hpend, hrun, hin, h.stores.policies]

/-- An instruction whose operation leaves the control fields alone. -/
theorem Sound.executed {o : Result State}
    (h : Sound (illFormed i.wellFormed) (Keeps State.control) id s o) (ha : armedBy i = fun _ => false)
    (hr : runStateAfter i = id) : Sound (illFormed i.wellFormed) (Executed i) id s o :=
  h.mono (fun _ he => he) fun _ ht => ht.executed ha hr

end Shapes

/-! ## The instructions whose meaning is no shape of its own -/

theorem execClr_sound (m : Mem) (s : State) :
    Sound (illFormed m.wellFormed) (Keeps State.control) id s (execClr m s) :=
  (effectiveAddress_sound m s).andThen fun x _ =>
    (write8_sound .other x.1 0 _).after (.of_flagsOnly ((FlagsOnly.setNZ0 x.2 0#8).trans (.setFlag _ .c false)))

theorem execTst_sound (m : Mem) (s : State) :
    Sound (illFormed m.wellFormed) (Keeps State.control) id s (execTst m s) :=
  (source8_sound .other (.mem m) s).andThen fun x _ => .of_next (.of_flagsOnly (.setNZ0 x.2 x.1))

theorem execJmp_sound (m : Mem) (s : State) :
    Sound (illFormed m.wellFormed) (Keeps State.control) id s (execJmp m s) :=
  (effectiveAddress_sound m s).andThen fun _ _ => .of_next (.of_eq rfl rfl rfl rfl)

theorem execJsr_sound (m : Mem) (s : State) :
    Sound (illFormed m.wellFormed) (Keeps State.control) id s (execJsr m s) :=
  (effectiveAddress_sound m s).andThen fun x _ =>
    (push16_sound .s x.2.pc x.2).andThen fun _ _ => .of_next (.of_eq rfl rfl rfl rfl)

theorem execRts_sound {E : Stop → Prop} (s : State) : Sound E (Keeps State.control) id s (execRts s) :=
  (pull16_sound .s s).andThen fun _ _ => .of_next (.of_eq rfl rfl rfl rfl)

/-- An accumulator cleared, with CLR's flags (R215). -/
theorem clearReg_keeps (r : Reg8) (s : State) :
    Keeps State.control s (((s.set8 r 0).setNZ0 (0#8)).setFlag .c false) :=
  (Keeps.set8 s r 0).trans (.of_flagsOnly ((FlagsOnly.setNZ0 _ _).trans (.setFlag _ .c false)))

theorem execMul_sound {E : Stop → Prop} (s : State) : Sound E (Keeps State.control) id s (execMul s) :=
  .of_next ((Keeps.set16 s .d _).trans (.of_flagsOnly ((FlagsOnly.setFlag _ .z _).trans (.setFlag _ .c _))))

theorem execSex_sound {E : Stop → Prop} (s : State) : Sound E (Keeps State.control) id s (execSex s) :=
  .of_next ((Keeps.set8 s .a _).trans (.of_flagsOnly (.setNZ _ _)))

theorem execTfr_sound (r1 r2 : AnyReg) (s : State) :
    Sound (illFormed (Instr.tfr r1 r2).wellFormed) (Executed (.tfr r1 r2)) id s (execTfr r1 r2 s) := by
  have arms (w : Reg16) {t : State} (h : Keeps State.control s t) :
      Executed (.tfr r1 (.wide w)) s (execTfr.arms w t) := by
    rw [execTfr.arms]
    split
    next hw => exact h.executed_armNmi (by simp [funext_iff, armedBy, hw]) rfl
    next hw => exact h.executed (by simp [funext_iff, armedBy, hw]) rfl
  match r1, r2 with
  | .wide w1, .wide w2 => exact .of_next (arms w2 (.set16 s w2 _))
  | .byte c1, .wide w2 =>
    have hdraw : Keeps State.control s { s with draws := s.draws + 1 } := .of_eq rfl rfl rfl rfl
    exact .of_next (arms w2 (hdraw.trans (.set16 _ w2 _)))
  | .byte c1, .byte c2 => exact .of_next ((Keeps.set8 s c2 _).executed (by simp [funext_iff, armedBy]) rfl)
  | .wide w1, .byte c2 => exact .of_refused ⟨rfl, by simp⟩

theorem execExg_sound (r1 r2 : AnyReg) (s : State) :
    Sound (illFormed (Instr.exg r1 r2).wellFormed) (Executed (.exg r1 r2)) id s (execExg r1 r2 s) := by
  match r1, r2 with
  | .wide w1, .wide w2 =>
    have h : Keeps State.control s ((s.set16 w1 (s.get16 w2)).set16 w2 (s.get16 w1)) :=
      (Keeps.set16 s w1 _).trans (.set16 _ w2 _)
    refine .of_next ?_
    simp only [id_eq]
    split
    next hw => exact h.executed_armNmi (by simp [funext_iff, armedBy, hw]) rfl
    next hw => exact h.executed (by simp_all [funext_iff, armedBy]) rfl
  | .byte c1, .byte c2 =>
    exact .of_next (((Keeps.set8 s c1 _).trans (.set8 _ c2 _)).executed (by simp [funext_iff, armedBy]) rfl)
  | .wide w1, .byte c2 => exact .of_refused ⟨rfl, by simp⟩
  | .byte c1, .wide w2 => exact .of_refused ⟨rfl, by simp⟩

theorem execPulu_sound {E : Stop → Prop} (mask : Byte) (s : State) :
    Sound E (Executed (.pulu mask)) id s (execPulu mask s) := by
  refine (pullRegs_sound .u mask s).map fun t ht => ?_
  show Executed _ _ (if mask.getLsbD 6 then _ else _)
  split
  next hm => exact ht.executed_armNmi (by simp [funext_iff, armedBy, hm]) rfl
  next hm => exact ht.executed (funext fun set => by rw [armedBy, eq_false_of_ne_true hm, Bool.and_false]) rfl

theorem execCwai_sound {E : Stop → Prop} (n : Byte) (s : State) :
    Sound E (Executed (.cwai n)) id s (execCwai n s) := by
  have hpush := (pushRegs_sound (E := E) .s 0xFF _).after
    ((Keeps.set8 s .cc (s.cc &&& n)).trans (.of_flagsOnly (.setFlag _ .e true)))
  refine hpush.map fun t ht => ⟨ht.storage.trans (.of_eq rfl rfl rfl rfl), ?_⟩
  have hf := ht.field
  simp only [State.control, Prod.mk.injEq, id_eq] at hf
  obtain ⟨harm, hpend, -, hin⟩ := hf
  simp [State.control, controlAfter, armedBy, runStateAfter, harm, hpend, hin]

/-- A software interrupt leaves the control fields: no NMI latch is cleared (R390 to R392). -/
theorem softwareInterrupt_sound {E : Stop → Prop} {ev : Event} (hl : ∀ s, ev.clearLatch s = s) (s : State) :
    Sound E (Keeps State.control) id s (takeInterrupt ev s) :=
  takeInterrupt_sound (fun _ _ h => h.field) (fun t => by rw [hl]) s

/-! ## All of them -/

/-- Every instruction: what its next state keeps, and that on full RAM a well-formed one does not stop. -/
theorem exec_sound (i : Instr) (s : State) :
    Sound (illFormed i.wellFormed) (Executed i) id s (exec i s) := by
  cases i with
  | abx => exact .executed (.of_next (.of_eq rfl rfl rfl rfl)) rfl rfl
  | adca src | adcb src => exact .executed (operate8_sound addWithCarry_only _ _ src s) rfl rfl
  | adda src | addb src => exact .executed (operate8_sound addNoCarry_only _ _ src s) rfl rfl
  | sbca src | sbcb src => exact .executed (operate8_sound subtractWithCarry_only _ _ src s) rfl rfl
  | suba src | subb src => exact .executed (operate8_sound subtract_only _ _ src s) rfl rfl
  | anda src | andb src => exact .executed (operate8_sound andByte_only _ _ src s) rfl rfl
  | ora src | orb src => exact .executed (operate8_sound orByte_only _ _ src s) rfl rfl
  | eora src | eorb src => exact .executed (operate8_sound xorByte_only _ _ src s) rfl rfl
  | lda src | ldb src => exact .executed (operate8_sound loadByte_only _ _ src s) rfl rfl
  | cmpa src | cmpb src => exact .executed (compare8_sound subtract_only _ src s) rfl rfl
  | bita src | bitb src => exact .executed (compare8_sound andByte_only _ src s) rfl rfl
  | addd src => exact .executed (operate16_sound addWord_only _ _ src s) rfl rfl
  | subd src => exact .executed (operate16_sound subtractWord_only _ _ src s) rfl rfl
  | ldd src | ldu src | ldx src | ldy src =>
    exact .executed (operate16_sound loadWord_only _ _ src s) rfl rfl
  | lds src =>
    exact (operate16_sound loadWord_only .plain .s src s).map fun t ht => ht.executed_armNmi rfl rfl
  | cmpd src | cmps src | cmpu src | cmpx src | cmpy src =>
    exact .executed (compare16_sound subtractWord_only _ src s) rfl rfl
  | neg m => exact .executed (modifyMem_sound negate_only m s) rfl rfl
  | com m => exact .executed (modifyMem_sound complement_only m s) rfl rfl
  | inc m => exact .executed (modifyMem_sound increment_only m s) rfl rfl
  | dec m => exact .executed (modifyMem_sound decrement_only m s) rfl rfl
  | asl m | lsl m => exact .executed (modifyMem_sound shiftLeft_only m s) rfl rfl
  | asr m => exact .executed (modifyMem_sound shiftRightArith_only m s) rfl rfl
  | lsr m => exact .executed (modifyMem_sound shiftRight_only m s) rfl rfl
  | rol m => exact .executed (modifyMem_sound rotateLeft_only m s) rfl rfl
  | ror m => exact .executed (modifyMem_sound rotateRight_only m s) rfl rfl
  | nega | negb => exact .executed (modifyReg_sound negate_only _ s) rfl rfl
  | coma | comb => exact .executed (modifyReg_sound complement_only _ s) rfl rfl
  | inca | incb => exact .executed (modifyReg_sound increment_only _ s) rfl rfl
  | deca | decb => exact .executed (modifyReg_sound decrement_only _ s) rfl rfl
  | asla | aslb | lsla | lslb => exact .executed (modifyReg_sound shiftLeft_only _ s) rfl rfl
  | asra | asrb => exact .executed (modifyReg_sound shiftRightArith_only _ s) rfl rfl
  | lsra | lsrb => exact .executed (modifyReg_sound shiftRight_only _ s) rfl rfl
  | rola | rolb => exact .executed (modifyReg_sound rotateLeft_only _ s) rfl rfl
  | rora | rorb => exact .executed (modifyReg_sound rotateRight_only _ s) rfl rfl
  | daa => exact .executed (modifyReg_sound decimalAdjust_only _ s) rfl rfl
  | clr m => exact .executed (execClr_sound m s) rfl rfl
  | clra | clrb => exact .executed (.of_next (clearReg_keeps _ s)) rfl rfl
  | tst m => exact .executed (execTst_sound m s) rfl rfl
  | tsta | tstb => exact .executed (.of_next (.of_flagsOnly (.setNZ0 s _))) rfl rfl
  | mul => exact .executed (execMul_sound s) rfl rfl
  | sex => exact .executed (execSex_sound s) rfl rfl
  | andcc n | orcc n => exact .executed (.of_next (.set8 s .cc _)) rfl rfl
  | leax p | leay p => exact .executed (loadAddressZ_sound _ p s) rfl rfl
  | leau p => exact .executed (loadAddress_sound .u p s) rfl rfl
  | leas p => exact (loadAddress_sound .s p s).map fun t ht => ht.executed_armNmi rfl rfl
  | sta m | stb m => exact .executed (store8_sound _ m s) rfl rfl
  | std m | sts m | stu m | stx m | sty m => exact .executed (store16_sound _ m s) rfl rfl
  | tfr r1 r2 => exact execTfr_sound r1 r2 s
  | exg r1 r2 => exact execExg_sound r1 r2 s
  | pshs mask | pshu mask => exact .executed (pushRegs_sound _ mask s) rfl rfl
  | puls mask => exact .executed (pullRegs_sound .s mask s) rfl rfl
  | pulu mask => exact execPulu_sound mask s
  | bcc off | bcs off | beq off | bge off | bgt off | bhi off | bhs off | ble off | blo off | bls off | blt off
  | bmi off | bne off | bpl off | bvc off | bvs off =>
    exact .executed (branchIf_sound _ (sext8 off) s) rfl rfl
  | lbhi off | lbls off | lbcc off | lbhs off | lbcs off | lblo off | lbne off | lbeq off | lbvc off | lbvs off
  | lbpl off | lbmi off | lbge off | lblt off | lbgt off | lble off =>
    exact .executed (branchIf_sound _ off s) rfl rfl
  | bra off | lbra off => exact .executed (.of_next (.of_eq rfl rfl rfl rfl)) rfl rfl
  | brn off | lbrn off => exact .executed (.of_next (.refl _ s)) rfl rfl
  | nop => exact .executed (.of_next (.refl _ s)) rfl rfl
  | bsr off => exact .executed (branchSubroutine_sound (sext8 off) s) rfl rfl
  | lbsr off => exact .executed (branchSubroutine_sound off s) rfl rfl
  | jmp m => exact .executed (execJmp_sound m s) rfl rfl
  | jsr m => exact .executed (execJsr_sound m s) rfl rfl
  | rts => exact .executed (execRts_sound s) rfl rfl
  | swi | swi2 | swi3 => exact .executed (softwareInterrupt_sound (fun _ => rfl) s) rfl rfl
  | rti => exact .executed (returnFromInterrupt_sound s) rfl rfl
  | cwai n => exact execCwai_sound n s
  | sync => exact .of_next ⟨.of_eq rfl rfl rfl rfl, by simp [State.control, controlAfter, armedBy, runStateAfter]⟩

/-- `armedBy` says what `armsNmi` says (R38, R404). -/
theorem armsNmi_iff (set : Config.NmiArmSet) (i : Instr) : armsNmi set i ↔ armedBy i set = true := by
  cases i with
  | lds _ | leas _ | tfr _ _ | pulu _ => simp [armsNmi, armedBy]
  | exg r1 r2 => simp [armsNmi, armedBy, exists_or, or_comm]
  | _ => simp [armsNmi, armedBy]

/-- Settles O22: the control fields after every instruction are `controlAfter`. -/
theorem onlyArmSetArmsNmi : Obligations.OnlyArmSetArmsNmi := by
  intro i s t h
  have hx : Executed i s t := (exec_sound i s).next t h
  exact ⟨by simp [hx.nmiArmed, armsNmi_iff], hx.nmiPending⟩

end Sys2Proof.Machine

/-! # Steps -/

namespace Sys2Proof.Machine

/-! ## Fetching -/

theorem fetch8_sound {E : Stop → Prop} (s : State) : Sound E (Keeps State.control) Prod.snd s (fetch8 s) :=
  (read8_sound .other s.pc s).andThen fun _ _ => .of_next (.of_eq rfl rfl rfl rfl)

theorem undefinedOpcodeStop_sound {α : Type} {R : State → State → Prop} {out : α → State} (s : State) :
    Sound (undefinedEncoding s.policies.undefOpcode) R out s (undefinedOpcodeStop s) := by
  unfold undefinedOpcodeStop
  constructor
  · intro x hx
    split at hx <;> cases hx
  · intro _ e he
    split at he
    next => cases he; simp [undefinedEncoding]
    next hp => cases he; exact .inl ⟨hp, rfl⟩

/-- The fetch moves PC and reads; it stops at an undefined encoding. -/
theorem fetchInstr_sound (fuel : Nat) (got : List Byte) (s : State) :
    Sound (undefinedEncoding s.policies.undefOpcode) (Keeps State.control) Prod.snd s (fetchInstr fuel got s) := by
  induction fuel generalizing got s with
  | zero =>
    unfold fetchInstr
    split
    next => exact .of_next (.refl _ s)
    next => exact undefinedOpcodeStop_sound s
    next => exact .of_refused (.inr (by simp))
    next => exact .of_refused (.inr (by simp))
    next => exact undefinedOpcodeStop_sound s
  | succ fuel ih =>
    unfold fetchInstr
    split
    next => exact .of_next (.refl _ s)
    next => exact undefinedOpcodeStop_sound s
    next => exact .of_refused (.inr (by simp))
    next => exact .of_refused (.inr (by simp))
    next =>
      refine (fetch8_sound s).andThen fun x hx => ?_
      have hp : x.2.policies = s.policies := ((fetch8_sound (E := fun _ => True) s).next x hx).stores.policies
      rw [← hp]
      exact ih (got ++ [x.1]) x.2

/-! ## The boundary -/

section Boundary
variable {E : Stop → Prop}

theorem runInstr_sound (s : State) :
    Sound (undefinedEncoding s.policies.undefOpcode) (Keeps State.nothing) id s (runInstr s) := by
  refine ((fetchInstr_sound maxLength [] s).mono (fun _ h => h) fun _ h => h.storage).andThen fun x _ => ?_
  exact (exec_sound x.1 x.2).mono (fun _ h => h.undefinedEncoding _) fun _ h => h.storage

theorem enterAfterCwai_sound (ev : Event) (s : State) :
    Sound E (Keeps State.nothing) id s (enterAfterCwai ev s) :=
  (enterVector_sound (fun _ _ _ => rfl) (fun _ => rfl) _).after (.of_eq rfl rfl rfl rfl)

theorem resetSequence_sound (s : State) : Sound E (Keeps State.nothing) id s (resetSequence s) :=
  Sound.after ((read16_sound .other resetVector _).map fun _ h => h.storage.trans (.of_eq rfl rfl rfl rfl))
    (.of_eq rfl rfl rfl rfl)

theorem takeOrRun_sound {run : State → Result State} {s : State} (i : Inputs)
    (hrun : Sound E (Keeps State.nothing) id s (run s)) :
    Sound E (Keeps State.nothing) id s (takeOrRun run i s) := by
  rw [takeOrRun]
  split
  · exact takeInterrupt_sound (fun _ _ _ => rfl) (fun _ => rfl) s
  · exact hrun

theorem runStateStep_sound (i : Inputs) (s : State) :
    Sound (undefinedEncoding s.policies.undefOpcode) (Keeps State.nothing) id s (runStateStep runInstr i s) := by
  rw [runStateStep]
  split
  · split
    · exact enterAfterCwai_sound _ s
    · exact .of_next (.refl _ s)
  · split
    · exact (takeOrRun_sound i (runInstr_sound { s with runState := .running })).after (.of_eq rfl rfl rfl rfl)
    · exact .of_next (.refl _ s)
  · exact takeOrRun_sound i (runInstr_sound s)

/-- Every step: it stores to RAM alone, and on full RAM it stops at an undefined encoding alone. -/
theorem step_sound (s : State) :
    Sound (undefinedEncoding s.policies.undefOpcode) (Keeps State.nothing) id s (step s) := by
  rw [step, boundary]
  split
  · exact (resetSequence_sound s.sampled).after (.of_eq rfl rfl rfl rfl)
  · exact (runStateStep_sound s.sample (latchNmi s.sample s.sampled)).after (.of_eq rfl rfl rfl rfl)

end Boundary

/-- Settles O19: every operation a step is made of stores to RAM alone. -/
theorem stepKeepsMapAndNonRam : Obligations.StepKeepsMapAndNonRam := by
  intro s t h
  obtain ⟨hmap, hpol, hfixed, -⟩ := ((step_sound s).next t h).stores
  exact ⟨hmap, hpol, hfixed⟩

/-- Settles O20: on full RAM every access succeeds, so the stops left are those of the decoder, TFR and EXG. -/
theorem fullRamNeverFaults : Obligations.FullRamNeverFaults := by
  intro s hs
  cases h : step s with
  | next t => exact .inl ⟨t, rfl, ((step_sound s).next t h).fullRam hs⟩
  | fault r =>
    rcases (step_sound s).stop hs (.inl r) (by rw [h]; rfl) with ⟨hp, hr⟩ | hr
    · cases hr
      exact .inr (.inl ⟨hp, rfl⟩)
    · simp at hr
  | refused r =>
    rcases (step_sound s).stop hs (.inr r) (by rw [h]; rfl) with ⟨-, hr⟩ | hr
    · cases hr
    · exact .inr (.inr ⟨r, by simpa using hr, rfl⟩)

end Sys2Proof.Machine

/-! # Undefined opcodes (R114, R115) -/

namespace Sys2Proof

/-- Page 1 lists every opcode but the undefined ones and the two that lead to the other pages (R111, R114). -/
theorem page1_isSome : ∀ op : Byte,
    (page1 op).isSome = decide (op ∉ Claims.undefinedPage1 ∧ op ≠ 0x10 ∧ op ≠ 0x11) := by decide

/-- R112. -/
theorem page2_isSome : ∀ op : Byte, (page2 op).isSome = decide (op ∈ Claims.definedPage2) := by decide

/-- R113. -/
theorem page3_isSome : ∀ op : Byte, (page3 op).isSome = decide (op ∈ Claims.definedPage3) := by decide

/-- Making something of what was decoded leaves the reason it was not. -/
theorem Decoded.andThen_ok_ne_undefinedOpcode {α β : Type} {d : Decoded α} {k : α → β}
    (hd : d ≠ .undefinedOpcode) : (d.andThen fun x rest => .ok (k x) rest) ≠ .undefinedOpcode := by
  cases d with
  | ok x rest => exact nofun
  | undefinedOpcode => exact absurd rfl hd
  | short | undefinedPostbyte | undefinedRegisterCode => simp [Decoded.andThen]

theorem decodeByte_ne_undefinedOpcode (bs : List Byte) : decodeByte bs ≠ .undefinedOpcode := by
  unfold decodeByte
  split <;> exact nofun

theorem decodeWord_ne_undefinedOpcode (bs : List Byte) : decodeWord bs ≠ .undefinedOpcode := by
  unfold decodeWord
  split <;> exact nofun

theorem decodeRegPair_ne_undefinedOpcode (bs : List Byte) : decodeRegPair bs ≠ .undefinedOpcode := by
  unfold decodeRegPair
  split
  · exact nofun
  · split <;> exact nofun

theorem decodeForm_ne_undefinedOpcode (pb : Byte) (r : IndexReg) (ind : Bool) (bs : List Byte) :
    decodeForm pb r ind bs ≠ .undefinedOpcode := by
  have hbyte {k : Byte → Indexed} := Decoded.andThen_ok_ne_undefinedOpcode (k := k) (decodeByte_ne_undefinedOpcode bs)
  have hword {k : Word → Indexed} := Decoded.andThen_ok_ne_undefinedOpcode (k := k) (decodeWord_ne_undefinedOpcode bs)
  unfold decodeForm
  split
  case h_1 | h_3 => split <;> exact nofun
  case h_13 =>
    split
    · exact hword
    · exact nofun
  case h_8 | h_11 => exact hbyte
  case h_9 | h_12 => exact hword
  all_goals exact nofun

theorem decodeIndexed_ne_undefinedOpcode (bs : List Byte) : decodeIndexed bs ≠ .undefinedOpcode := by
  unfold decodeIndexed
  split
  · exact nofun
  · simp only
    split
    · exact decodeForm_ne_undefinedOpcode _ _ _ _
    · exact nofun

/-- Once an opcode is listed, its operand bytes cannot make it undefined. -/
theorem Format.operands_ne_undefinedOpcode (f : Format) (bs : List Byte) : f.operands bs ≠ .undefinedOpcode := by
  cases f with
  | inherent i => simp [Format.operands]
  | immediate8 | direct | relative8 | stackPostbyte =>
    exact Decoded.andThen_ok_ne_undefinedOpcode (decodeByte_ne_undefinedOpcode bs)
  | immediate16 | extended | relative16 =>
    exact Decoded.andThen_ok_ne_undefinedOpcode (decodeWord_ne_undefinedOpcode bs)
  | indexed => exact Decoded.andThen_ok_ne_undefinedOpcode (decodeIndexed_ne_undefinedOpcode bs)
  | registerPostbyte k =>
    exact Decoded.andThen_ok_ne_undefinedOpcode (k := fun p => k p.1 p.2) (decodeRegPair_ne_undefinedOpcode bs)

/-- An opcode is undefined exactly when its page does not list it (R114). -/
theorem decodePage_eq_undefinedOpcode (page : Byte → Option Format) (op : Byte) (rest : List Byte) :
    decodePage page (op :: rest) = .undefinedOpcode ↔ (page op).isSome = false := by
  rw [decodePage]
  cases page op with
  | none => simp
  | some f => simpa using f.operands_ne_undefinedOpcode rest

theorem decode_page1 {op : Byte} (h2 : op ≠ 0x10) (h3 : op ≠ 0x11) (rest : List Byte) :
    decode (op :: rest) = decodePage page1 (op :: rest) :=
  (if_neg h2).trans (if_neg h3)

theorem decode_page2 (bs : List Byte) : decode (0x10 :: bs) = decodePage page2 bs := rfl

theorem decode_page3 (bs : List Byte) : decode (0x11 :: bs) = decodePage page3 bs := rfl

/-- R114 for the opcodes without a page byte before them. -/
theorem decode_eq_undefinedOpcode_iff {op : Byte} (h2 : op ≠ 0x10) (h3 : op ≠ 0x11) (rest : List Byte) :
    decode (op :: rest) = .undefinedOpcode ↔ op ∈ Claims.undefinedPage1 := by
  rw [decode_page1 h2 h3, decodePage_eq_undefinedOpcode, page1_isSome, decide_eq_false_iff_not]
  tauto

/-- R114, R115 for the second byte after 10H. -/
theorem decode_page2_eq_undefinedOpcode_iff (op : Byte) (rest : List Byte) :
    decode (0x10 :: op :: rest) = .undefinedOpcode ↔ op ∉ Claims.definedPage2 := by
  rw [decode_page2, decodePage_eq_undefinedOpcode, page2_isSome, decide_eq_false_iff_not]

/-- R114, R115 for the second byte after 11H. -/
theorem decode_page3_eq_undefinedOpcode_iff (op : Byte) (rest : List Byte) :
    decode (0x11 :: op :: rest) = .undefinedOpcode ↔ op ∉ Claims.definedPage3 := by
  rw [decode_page3, decodePage_eq_undefinedOpcode, page3_isSome, decide_eq_false_iff_not]

/-- The undefined opcodes of page 1 do not lead to the other pages. -/
theorem undefinedPage1_ne {op : Byte} (h : op ∈ Claims.undefinedPage1) : op ≠ 0x10 ∧ op ≠ 0x11 := by
  constructor <;> (rintro rfl; revert h; decide)

end Sys2Proof

namespace Sys2Proof.Machine

open Sys2Proof.Claims

/-! ## Running an instruction -/

/-- No interrupt is taken at a boundary where the machine runs an instruction (R407 step 4). -/
theorem accepted_eq_none {s : State} (h : RunsInstruction s) : accepted s.sample s.sampled = none := by
  obtain ⟨-, -, hno⟩ := h
  have hnmi : ¬NmiRequested s := hno .nmi
  have hfirq : ¬(s.sample.firqLevel = true ∧ s.flag .f = false) := fun hf => hno .firq ⟨hnmi, hf⟩
  have hirq : ¬(s.sample.irqLevel = true ∧ s.flag .i = false) := fun hi => hno .irq ⟨hnmi, hfirq, hi⟩
  have hpend : s.nmiPending = false := eq_false_of_ne_true fun hp => hnmi (.inl hp)
  have hfirq' : (s.sample.firqLevel && !s.flag .f) = false := by simpa using hfirq
  have hirq' : (s.sample.irqLevel && !s.flag .i) = false := by simpa using hirq
  show (if s.nmiPending then _ else if s.sample.firqLevel && !s.flag .f then _ else
    if s.sample.irqLevel && !s.flag .i then _ else none) = none
  rw [hpend, hfirq', hirq']
  rfl

/-- With no NMI requested there is nothing to latch (R404). -/
theorem latchNmi_eq_self {s : State} (h : ¬NmiRequested s) : latchNmi s.sample s.sampled = s.sampled := by
  obtain ⟨hpend, hedge⟩ := not_or.1 h
  simp only [not_and, Bool.not_eq_true] at hpend hedge
  have hlatch : (s.sample.nmiEdge && s.nmiArmed) = false := by simpa using hedge
  simp [latchNmi, State.sampled, hpend, hlatch]

/-- Step 5 of R407. -/
theorem step_of_runsInstruction {s : State} (h : RunsInstruction s) : step s = runInstr s.sampled := by
  have hacc := accepted_eq_none h
  obtain ⟨hrun, hreset, hno⟩ := h
  have hrun' : s.sampled.runState = .running := hrun
  rw [step, boundary, hreset, latchNmi_eq_self (hno .nmi)]
  simp [runStateStep, hrun', takeOrRun, hacc]

section Fetch
variable {s : State} {fuel : Nat} {got : List Byte}

/-- One more byte is fetched while the bytes are no whole instruction (R78, R110). -/
theorem fetchInstr_of_short {b : Byte} (h : decode got = .short) (hb : s.Reads s.pc b) :
    fetchInstr (fuel + 1) got s = fetchInstr fuel (got ++ [b]) { s with pc := s.pc + 1#16 } := by
  rw [fetchInstr, h]
  simp [fetch8, read8_of_reads .other hb]

theorem fetchInstr_of_undefinedOpcode (h : decode got = .undefinedOpcode) :
    fetchInstr fuel got s = undefinedOpcodeStop s := by
  rw [fetchInstr.eq_def, h]

/-- A fetch that ends at an undefined opcode: `UNDEF_OPCODE_POLICY` says what the step answers (D7). -/
theorem runInstr_of_undefinedOpcode {t : State} (h : fetchInstr maxLength [] s = undefinedOpcodeStop t)
    (hp : t.policies = s.policies) : runInstr s = undefinedAnswer s.policies.undefOpcode := by
  rw [runInstr, h, ← hp, undefinedOpcodeStop]
  cases t.policies.undefOpcode <;> rfl

end Fetch

/-- A step on an opcode byte that is undefined on page 1 (R114). -/
theorem step_of_undefined_byte {s : State} {op : Byte} (hrun : RunsInstruction s) (hop : s.Reads s.pc op)
    (h : decode [op] = .undefinedOpcode) : step s = undefinedAnswer s.policies.undefOpcode := by
  have hfetch := fetchInstr_of_short (s := s.sampled) (fuel := 4) (got := []) rfl hop
  rw [step_of_runsInstruction hrun]
  exact runInstr_of_undefinedOpcode (s := s.sampled) (hfetch.trans (fetchInstr_of_undefinedOpcode h)) rfl

/-- A step on two bytes of which the first leads to a page that does not list the second (R114, R115). -/
theorem step_of_undefined_pair {s : State} {p op : Byte} (hrun : RunsInstruction s) (hs : Holds s s.pc [p, op])
    (hp : decode [p] = .short) (h : decode [p, op] = .undefinedOpcode) :
    step s = undefinedAnswer s.policies.undefOpcode := by
  have h0 : s.Reads s.pc p := by simpa using hs 0 p rfl
  have h1 : s.Reads (s.pc + 1#16) op := hs 1 op rfl
  have hfetch0 := fetchInstr_of_short (s := s.sampled) (fuel := 4) (got := []) rfl h0
  have hfetch1 := fetchInstr_of_short (s := { s.sampled with pc := s.pc + 1#16 }) (fuel := 3) hp h1
  rw [step_of_runsInstruction hrun]
  exact runInstr_of_undefinedOpcode (s := s.sampled)
    (hfetch0.trans (hfetch1.trans (fetchInstr_of_undefinedOpcode h))) rfl

/-- Settles O4: the decoder finds undefined exactly what R114 and R115 list, and the fetch stops there. -/
theorem undefinedOpcodesRefused : Obligations.UndefinedOpcodesRefused := by
  refine ⟨fun s op hrun hop hu => ?_, fun s p op hrun hs hu => ?_, fun op rest hu h2 h3 hd => ?_,
    fun p op rest hl hd => ?_⟩
  · obtain ⟨h2, h3⟩ := undefinedPage1_ne hu
    exact step_of_undefined_byte hrun hop ((decode_eq_undefinedOpcode_iff h2 h3 []).2 hu)
  · rcases hu with ⟨rfl, hu⟩ | ⟨rfl, hu⟩
    · exact step_of_undefined_pair hrun hs rfl ((decode_page2_eq_undefinedOpcode_iff op []).2 hu)
    · exact step_of_undefined_pair hrun hs rfl ((decode_page3_eq_undefinedOpcode_iff op []).2 hu)
  · exact hu ((decode_eq_undefinedOpcode_iff h2 h3 rest).1 hd)
  · rcases hl with ⟨rfl, hl⟩ | ⟨rfl, hl⟩
    · exact (decode_page2_eq_undefinedOpcode_iff op rest).1 hd hl
    · exact (decode_page3_eq_undefinedOpcode_iff op rest).1 hd hl

end Sys2Proof.Machine

/-! # Invariants and whole-machine rules of the state -/

namespace Sys2Proof.Machine

/-! ## Reset (R41) -/

/-- Settles O10: the values are those `State.reset` is written with. -/
theorem resetStateValues : Obligations.ResetStateValues := by
  unfold Obligations.ResetStateValues
  refine ⟨?masks_f, ?masks_i, rfl, rfl, rfl, rfl, rfl, rfl, ?registers, ?flags⟩
  case masks_f | masks_i | registers | flags => decide

/-- Settles O12: there is no byte of memory, and no NMI is pending. -/
theorem resetMeetsInvariant : Obligations.ResetMeetsInvariant := by
  have hmem : Memory.wf State.reset.mem := ⟨List.Pairwise.nil, nofun⟩
  have hnmi : State.reset.nmiPending = true → State.reset.nmiArmed = true := nofun
  exact ⟨hmem, hnmi⟩

/-! ## Every step keeps the invariant -/

/-- No NMI has become pending, and NMI has not been disarmed. -/
structure KeepsLatch (s t : State) : Prop where
  pending : t.nmiPending = true → s.nmiPending = true
  armed : s.nmiArmed = true → t.nmiArmed = true

/-- An NMI is latched only while NMI is armed (R39, R404). -/
def State.LatchArmed (s : State) : Prop := s.nmiPending = true → s.nmiArmed = true

section Latch
variable {s t u : State}

theorem State.inv_iff : s.Inv ↔ Memory.wf s.mem ∧ s.LatchArmed := Iff.rfl

theorem KeepsLatch.latchArmed (h : KeepsLatch s t) (hs : s.LatchArmed) : t.LatchArmed :=
  fun hp => h.armed (hs (h.pending hp))

theorem KeepsLatch.of_eq (hp : t.nmiPending = s.nmiPending) (ha : t.nmiArmed = s.nmiArmed) : KeepsLatch s t :=
  ⟨fun h => hp ▸ h, fun h => ha ▸ h⟩

theorem KeepsLatch.trans (h1 : KeepsLatch s t) (h2 : KeepsLatch t u) : KeepsLatch s u :=
  ⟨fun h => h1.pending (h2.pending h), fun h => h2.armed (h1.armed h)⟩

theorem Keeps.keepsLatch (h : Keeps State.control s t) : KeepsLatch s t :=
  .of_eq (congrArg (fun c => c.2.1) h.field) (congrArg Prod.fst h.field)

/-- Instructions arm NMI at most (R38). -/
theorem Executed.keepsLatch {i : Instr} (h : Executed i s t) : KeepsLatch s t where
  pending hp := h.nmiPending ▸ hp
  armed ha := by rw [h.nmiArmed, ha, Bool.true_or]

/-- The end of an entry clears the latch at most (R404). -/
theorem KeepsLatch.enterVector {ev : Event} (h : enterVector ev s = .next t) : KeepsLatch s t := by
  obtain ⟨log, pc, rfl⟩ := enterVector_state h
  have hmasks := (Keeps.setMasks ev s).keepsLatch
  have hlatch : KeepsLatch (ev.setMasks s) (ev.clearLatch (ev.setMasks s)) := by
    cases ev with
    | nmi => exact ⟨nofun, id⟩
    | _ => exact .of_eq rfl rfl
  exact hmasks.trans (hlatch.trans (.of_eq rfl rfl))

theorem KeepsLatch.takeInterrupt {ev : Event} (h : takeInterrupt ev s = .next t) : KeepsLatch s t := by
  obtain ⟨m, hpush, henter⟩ := takeInterrupt_eq_next.1 h
  have hflag : KeepsLatch s (s.setFlag .e ev.entire) := .of_eq rfl rfl
  have hframe := ((pushRegs_sound (E := fun _ => True) .s ev.frameMask _).next m hpush).keepsLatch
  exact hflag.trans (hframe.trans (.enterVector henter))

theorem KeepsLatch.runInstr (h : runInstr s = .next t) : KeepsLatch s t := by
  obtain ⟨⟨i, x⟩, hfetch, hexec⟩ := Result.andThen_eq_next.1 h
  exact ((fetchInstr_sound maxLength [] s).next _ hfetch).keepsLatch.trans ((exec_sound i x).next t hexec).keepsLatch

theorem KeepsLatch.takeOrRun {i : Inputs} (h : takeOrRun Machine.runInstr i s = .next t) : KeepsLatch s t := by
  unfold Machine.takeOrRun at h
  split at h
  · exact .takeInterrupt h
  · exact .runInstr h

/-- What the machine does in each run state, after the latch (R407 steps 3 to 5). -/
theorem KeepsLatch.runStateStep {i : Inputs} (h : runStateStep Machine.runInstr i s = .next t) : KeepsLatch s t := by
  have running : KeepsLatch s { s with runState := .running } := .of_eq rfl rfl
  unfold Machine.runStateStep at h
  cases hrun : s.runState with
  | cwaiWait =>
    rw [hrun] at h
    simp only at h
    split at h
    · exact running.trans (.enterVector h)
    · cases h
      exact .of_eq rfl rfl
  | syncWait =>
    rw [hrun] at h
    simp only at h
    split at h
    · exact running.trans (.takeOrRun h)
    · cases h
      exact .of_eq rfl rfl
  | running =>
    rw [hrun] at h
    exact .takeOrRun h

/-- An edge is latched only while NMI is armed (R404). -/
theorem latchNmi_latchArmed (i : Inputs) (h : s.LatchArmed) : (latchNmi i s).LatchArmed := by
  intro hp
  rcases (Bool.or_eq_true _ _).mp hp with hp | hp
  · exact h hp
  · exact ((Bool.and_eq_true _ _).mp hp).2

/-- The reset sequence drops a pending NMI (R450). -/
theorem resetSequence_latchArmed (h : resetSequence s = .next t) : t.LatchArmed := by
  obtain ⟨⟨pc, x⟩, hread, hnext⟩ := Result.andThen_eq_next.1 h
  obtain ⟨log, rfl⟩ := read16_state hread
  cases hnext
  exact nofun

theorem step_latchArmed (hs : s.LatchArmed) (h : step s = .next t) : t.LatchArmed := by
  unfold step boundary at h
  split at h
  · exact resetSequence_latchArmed h
  · exact (KeepsLatch.runStateStep h).latchArmed (latchNmi_latchArmed s.sample hs)

end Latch

/-- Settles O18: every operation stores in canonical form, and the latch is set only where NMI is armed. -/
theorem stepKeepsInvariant : Obligations.StepKeepsInvariant := by
  intro s t hinv h
  obtain ⟨hwf, hlatch⟩ := State.inv_iff.1 hinv
  exact State.inv_iff.2 ⟨((step_sound s).next t h).stores.wf hwf, step_latchArmed hlatch h⟩

/-! ## The run state -/

theorem Executed.runState {i : Instr} {s t : State} (h : Executed i s t) :
    t.runState = runStateAfter i s.runState :=
  congrArg (fun c => c.2.2.1) h.control

/-- Settles O23: the run state after every instruction is `runStateAfter`. -/
theorem onlyWaitsStopRunning : Obligations.OnlyWaitsStopRunning := by
  intro i s t h
  have hrun : t.runState = runStateAfter i s.runState := ((exec_sound i s).next t h).runState
  rw [hrun]
  cases i with
  | cwai n => rfl
  | sync => rfl
  | _ => rfl

end Sys2Proof.Machine

/-! # Which instructions write E, F, I and DP -/

namespace Sys2Proof.Machine

/-- From `s` to `t` E, F and I are kept if `masks` holds, and DP if `dp` holds. -/
structure Spares (masks dp : Prop) (s t : State) : Prop where
  masks : masks → ∀ g ∈ [Flag.e, .f, .i], t.flag g = s.flag g
  dp : dp → t.dp = s.dp

section Sparing
variable {m d : Prop} {s t u : State}

theorem Spares.of_eq (hcc : t.cc = s.cc) (hdp : t.dp = s.dp) : Spares m d s t :=
  ⟨fun _ g _ => State.flag_congr hcc g, fun _ => hdp⟩

theorem Spares.refl (s : State) : Spares m d s s := .of_eq rfl rfl

theorem Spares.trans (h1 : Spares m d s t) (h2 : Spares m d t u) : Spares m d s u :=
  ⟨fun hm g hg => (h2.masks hm g hg).trans (h1.masks hm g hg), fun hd => (h2.dp hd).trans (h1.dp hd)⟩

/-! ## Updates of the state -/

/-- An operation that writes flags alone, other than E, F and I. -/
theorem Spares.of_flagsOnly {flags : List Flag} (h : FlagsOnly s t) (hk : ∀ g, g ∉ flags → t.flag g = s.flag g)
    (hf : ∀ g ∈ [Flag.e, .f, .i], g ∉ flags) : Spares m d s t :=
  ⟨fun _ g hg => hk g (hf g hg), fun _ => h.dp⟩

/-- An operation on two values that writes flags alone, other than E, F and I. -/
theorem Spares.binary {α : Type} {op : α → α → State → α × State} {flags : List Flag}
    (ho : ∀ a v x, FlagsOnly x (op a v x).2) (hk : ∀ a v x g, g ∉ flags → (op a v x).2.flag g = x.flag g)
    (hf : ∀ g ∈ [Flag.e, .f, .i], g ∉ flags) (a v : α) (s : State) : Spares m d s (op a v s).2 :=
  .of_flagsOnly (ho a v s) (hk a v s) hf

/-- An operation on one value that writes flags alone, other than E, F and I. -/
theorem Spares.unary {α : Type} {op : α → State → α × State} {flags : List Flag}
    (ho : ∀ v x, FlagsOnly x (op v x).2) (hk : ∀ v x g, g ∉ flags → (op v x).2.flag g = x.flag g)
    (hf : ∀ g ∈ [Flag.e, .f, .i], g ∉ flags) (v : α) (s : State) : Spares m d s (op v s).2 :=
  .of_flagsOnly (ho v s) (hk v s) hf

/-- An instruction that is free to write E, F and I. -/
theorem Spares.of_writer {i : Instr} (hw : mayChangeMasks i) (hdp : t.dp = s.dp) :
    Spares (¬mayChangeMasks i) d s t :=
  ⟨absurd hw, fun _ => hdp⟩

theorem Spares.setFlag (s : State) {g : Flag} (hg : g ∉ [Flag.e, .f, .i]) (q : Bool) :
    Spares m d s (s.setFlag g q) := by
  refine ⟨fun _ k hk => ?_, fun _ => rfl⟩
  have hne : k ≠ g := fun he => hg (he ▸ hk)
  simp [hne]

theorem Spares.setNZ {w : Nat} (s : State) (v : BitVec w) : Spares m d s (s.setNZ v) :=
  (Spares.setFlag s (by decide) _).trans (.setFlag _ (by decide) _)

theorem Spares.setNZ0 {w : Nat} (s : State) (v : BitVec w) : Spares m d s (s.setNZ0 v) :=
  (Spares.setNZ s v).trans (.setFlag _ (by decide) _)

theorem Spares.set8 (s : State) {r : Reg8} (hm : m → r ≠ .cc) (hd : d → r ≠ .dp) (v : Byte) :
    Spares m d s (s.set8 r v) := by
  cases r with
  | a | b => exact .of_eq rfl rfl
  | cc => exact ⟨fun h => absurd rfl (hm h), fun _ => rfl⟩
  | dp => exact ⟨fun _ _ _ => rfl, fun h => absurd rfl (hd h)⟩

theorem Spares.set16 (s : State) (r : Reg16) (v : Word) : Spares m d s (s.set16 r v) := .of_eq (by simp) (by simp)

theorem Spares.armNmi (s : State) (writer : Config.NmiArmSet → Bool) : Spares m d s (s.armNmi writer) :=
  .of_eq rfl rfl

/-! ## Memory, stacks and operands -/

theorem Spares.write8 {acc : Config.Access} {addr : Word} {v : Byte} (h : write8 acc addr v s = .next t) :
    Spares m d s t := by
  rcases write8_eq_next.1 h with ⟨-, rfl⟩ | ⟨_, -, -, rfl⟩ <;> exact .of_eq rfl rfl

theorem Spares.write16 {acc : Config.Access} {addr v : Word} (h : write16 acc addr v s = .next t) :
    Spares m d s t := by
  obtain ⟨x, h1, h2⟩ := Result.andThen_eq_next.1 h
  exact (Spares.write8 h1).trans (.write8 h2)

theorem Pushed.spares {r : StackReg} (h : Pushed r s t) : Spares m d s t := by
  obtain ⟨_, _, _, rfl⟩ := h.shape
  exact .of_eq (by simp) (by simp)

theorem Spares.pull16 {r : StackReg} {v : Word} (h : pull16 r s = .next (v, t)) : Spares m d s t := by
  obtain ⟨_, rfl⟩ := pull16_state h
  exact .of_eq (by simp) (by simp)

theorem Spares.pull8 {r : StackReg} {v : Byte} (h : pull8 r s = .next (v, t)) : Spares m d s t := by
  obtain ⟨_, rfl⟩ := pull8_state h
  exact .of_eq (by simp) (by simp)

/-- A pull writes CC or DP where its item is that register (R318). -/
theorem Spares.pullItem {r : StackReg} {it : StackItem} (hm : m → it ≠ .cc) (hd : d → it ≠ .dp)
    (h : pullItem r it s = .next t) : Spares m d s t := by
  cases it with
  | a | b =>
    obtain ⟨⟨v, x⟩, h1, h2⟩ := Result.andThen_eq_next.1 h
    cases h2
    exact (Spares.pull8 h1).trans (.of_eq rfl rfl)
  | cc =>
    obtain ⟨⟨v, x⟩, h1, h2⟩ := Result.andThen_eq_next.1 h
    cases h2
    exact (Spares.pull8 h1).trans (.set8 x (r := .cc) (fun k => absurd rfl (hm k)) nofun v)
  | dp =>
    obtain ⟨⟨v, x⟩, h1, h2⟩ := Result.andThen_eq_next.1 h
    cases h2
    exact (Spares.pull8 h1).trans (.set8 x (r := .dp) nofun (fun k => absurd rfl (hd k)) v)
  | x | y | other | pc =>
    obtain ⟨⟨v, x⟩, h1, h2⟩ := Result.andThen_eq_next.1 h
    cases h2
    exact (Spares.pull16 h1).trans (.of_eq (by simp) (by simp))

theorem Spares.pullItems {r : StackReg} {mask : Byte} {items : List StackItem}
    (hm : m → mask.getLsbD 0 = false) (hd : d → mask.getLsbD 3 = false)
    (h : pullItems r mask items s = .next t) : Spares m d s t := by
  induction items generalizing s with
  | nil =>
    cases h
    exact .refl _
  | cons it rest ih =>
    rw [Machine.pullItems] at h
    split at h
    next hbit =>
      obtain ⟨x, hitem, hrest⟩ := Result.andThen_eq_next.1 h
      have hcc : m → it ≠ .cc := by
        rintro k rfl
        exact Bool.false_ne_true ((hm k).symm.trans hbit)
      have hdp : d → it ≠ .dp := by
        rintro k rfl
        exact Bool.false_ne_true ((hd k).symm.trans hbit)
      exact (Spares.pullItem hcc hdp hitem).trans (ih hrest)
    next => exact ih h

theorem Addressed.spares {upd : List RegName} (h : Addressed upd s t) : Spares m d s t := by
  obtain ⟨_, rfl | ⟨_, _, rfl, -⟩⟩ := h <;> exact .of_eq (by simp) (by simp)

/-! ## Shapes of instructions, for operations that keep E, F and I and write an accumulator or memory -/

theorem Spares.operate8 {op : Byte → Byte → State → Byte × State} {acc : Config.Access} {r : Reg8} {src : Src8}
    (hop : ∀ a v x, Spares m d x (op a v x).2) (hr : r ≠ .cc ∧ r ≠ .dp) (h : operate8 acc r src op s = .next t) :
    Spares m d s t := by
  obtain ⟨⟨v, x⟩, hsrc, hnext⟩ := Result.andThen_eq_next.1 h
  cases hnext
  exact (source8_state hsrc).spares.trans ((hop _ v x).trans (.set8 _ (fun _ => hr.1) (fun _ => hr.2) _))

theorem Spares.compare8 {op : Byte → Byte → State → Byte × State} {r : Reg8} {src : Src8}
    (hop : ∀ a v x, Spares m d x (op a v x).2) (h : compare8 r src op s = .next t) : Spares m d s t := by
  obtain ⟨⟨v, x⟩, hsrc, hnext⟩ := Result.andThen_eq_next.1 h
  cases hnext
  exact (source8_state hsrc).spares.trans (hop _ v x)

theorem Spares.operate16 {op : Word → Word → State → Word × State} {acc : Config.Access} {r : Reg16} {src : Src16}
    (hop : ∀ a v x, Spares m d x (op a v x).2) (h : operate16 acc r src op s = .next t) : Spares m d s t := by
  obtain ⟨⟨v, x⟩, hsrc, hnext⟩ := Result.andThen_eq_next.1 h
  cases hnext
  exact (source16_state hsrc).spares.trans ((hop _ v x).trans (.set16 _ r _))

theorem Spares.compare16 {op : Word → Word → State → Word × State} {r : Reg16} {src : Src16}
    (hop : ∀ a v x, Spares m d x (op a v x).2) (h : compare16 r src op s = .next t) : Spares m d s t := by
  obtain ⟨⟨v, x⟩, hsrc, hnext⟩ := Result.andThen_eq_next.1 h
  cases hnext
  exact (source16_state hsrc).spares.trans (hop _ v x)

theorem Spares.modifyReg {op : Byte → State → Byte × State} {r : Reg8} (hop : ∀ v x, Spares m d x (op v x).2)
    (hr : r ≠ .cc ∧ r ≠ .dp) (h : modifyReg r op s = .next t) : Spares m d s t := by
  cases h
  exact (hop _ s).trans (.set8 _ (fun _ => hr.1) (fun _ => hr.2) _)

theorem Spares.modifyMem {op : Byte → State → Byte × State} {o : Mem} (hop : ∀ v x, Spares m d x (op v x).2)
    (h : modifyMem o op s = .next t) : Spares m d s t := by
  obtain ⟨⟨ea, x⟩, haddr, h⟩ := Result.andThen_eq_next.1 h
  obtain ⟨⟨v, y⟩, hread, hwrite⟩ := Result.andThen_eq_next.1 h
  obtain ⟨_, rfl⟩ := read8_state hread
  exact ((effectiveAddress_state haddr).withLog _).spares.trans ((hop v _).trans (.write8 hwrite))

theorem Spares.store8 {r : Reg8} {o : Mem} (h : store8 r o s = .next t) : Spares m d s t := by
  obtain ⟨⟨ea, x⟩, haddr, hwrite⟩ := Result.andThen_eq_next.1 h
  exact (effectiveAddress_state haddr).spares.trans ((Spares.setNZ0 x _).trans (.write8 hwrite))

theorem Spares.store16 {r : Reg16} {o : Mem} (h : store16 r o s = .next t) : Spares m d s t := by
  obtain ⟨⟨ea, x⟩, haddr, hwrite⟩ := Result.andThen_eq_next.1 h
  exact (effectiveAddress_state haddr).spares.trans ((Spares.setNZ0 x _).trans (.write16 hwrite))

theorem Spares.loadAddress {r : Reg16} {p : Indexed} (h : loadAddress r p s = .next t) : Spares m d s t := by
  obtain ⟨⟨ea, x⟩, haddr, hnext⟩ := Result.andThen_eq_next.1 h
  cases hnext
  exact (indexedAddress_state haddr).spares.trans (.set16 x r ea)

theorem Spares.loadAddressZ {r : Reg16} {p : Indexed} (h : loadAddressZ r p s = .next t) : Spares m d s t := by
  obtain ⟨⟨ea, x⟩, haddr, hnext⟩ := Result.andThen_eq_next.1 h
  cases hnext
  exact (indexedAddress_state haddr).spares.trans ((Spares.set16 x r ea).trans (.setFlag _ (by decide) _))

theorem Spares.branchIf {k : Cond} {off : Word} (h : branchIf k off s = .next t) : Spares m d s t := by
  cases h
  split
  · exact .of_eq rfl rfl
  · exact .refl s

theorem Spares.branchSubroutine {off : Word} (h : branchSubroutine off s = .next t) : Spares m d s t := by
  obtain ⟨x, hpush, hnext⟩ := Result.andThen_eq_next.1 h
  cases hnext
  exact (Pushed.push16 hpush).spares.trans (.of_eq rfl rfl)

/-! ## The instructions whose meaning is no shape of its own -/

theorem execClr_spares {o : Mem} (h : execClr o s = .next t) : Spares m d s t := by
  obtain ⟨⟨ea, x⟩, haddr, hwrite⟩ := Result.andThen_eq_next.1 h
  exact (effectiveAddress_state haddr).spares.trans
    ((Spares.setNZ0 x 0#8).trans ((Spares.setFlag _ (by decide) _).trans (.write8 hwrite)))

/-- An accumulator cleared, with CLR's flags (R215). -/
theorem clearReg_spares (s : State) {r : Reg8} (hr : r ≠ .cc ∧ r ≠ .dp) :
    Spares m d s (((s.set8 r 0).setNZ0 (0#8)).setFlag .c false) :=
  (Spares.set8 s (fun _ => hr.1) (fun _ => hr.2) 0).trans ((Spares.setNZ0 _ _).trans (.setFlag _ (by decide) _))

theorem execTst_spares {o : Mem} (h : execTst o s = .next t) : Spares m d s t := by
  obtain ⟨⟨v, x⟩, hsrc, hnext⟩ := Result.andThen_eq_next.1 h
  cases hnext
  exact (source8_state (src := .mem o) hsrc).spares.trans (.setNZ0 x v)

theorem execMul_spares (h : execMul s = .next t) : Spares m d s t := by
  cases h
  exact (Spares.set16 s .d _).trans ((Spares.setFlag _ (by decide) _).trans (.setFlag _ (by decide) _))

theorem execSex_spares (h : execSex s = .next t) : Spares m d s t := by
  cases h
  exact (Spares.set8 s (r := .a) nofun nofun _).trans (.setNZ _ _)

theorem execJmp_spares {o : Mem} (h : execJmp o s = .next t) : Spares m d s t := by
  obtain ⟨⟨ea, x⟩, haddr, hnext⟩ := Result.andThen_eq_next.1 h
  cases hnext
  exact (effectiveAddress_state haddr).spares.trans (.of_eq rfl rfl)

theorem execJsr_spares {o : Mem} (h : execJsr o s = .next t) : Spares m d s t := by
  obtain ⟨⟨ea, x⟩, haddr, h⟩ := Result.andThen_eq_next.1 h
  obtain ⟨y, hpush, hnext⟩ := Result.andThen_eq_next.1 h
  cases hnext
  exact (effectiveAddress_state haddr).spares.trans ((Pushed.push16 hpush).spares.trans (.of_eq rfl rfl))

theorem execRts_spares (h : execRts s = .next t) : Spares m d s t := by
  obtain ⟨⟨v, x⟩, hpull, hnext⟩ := Result.andThen_eq_next.1 h
  cases hnext
  exact (Spares.pull16 hpull).trans (.of_eq rfl rfl)

theorem takeInterrupt_dp {ev : Event} (h : takeInterrupt ev s = .next t) : t.dp = s.dp := by
  obtain ⟨x, hpush, henter⟩ := takeInterrupt_eq_next.1 h
  obtain ⟨_, _, rfl⟩ := enterVector_state henter
  have hmasks : (ev.clearLatch (ev.setMasks x)).dp = x.dp := by cases ev <;> rfl
  exact hmasks.trans (((Pushed.pushRegs hpush).spares (m := True) (d := True)).dp trivial)

theorem execCwai_dp {n : Byte} (h : execCwai n s = .next t) : t.dp = s.dp := by
  obtain ⟨x, hpush, hnext⟩ := Result.andThen_eq_next.1 h
  cases hnext
  exact ((Pushed.pushRegs hpush).spares (m := True) (d := True)).dp trivial

/-- A transfer writes CC or DP where its destination is that register (R311). -/
theorem execTfr_spares {r1 r2 : AnyReg} (hm : m → r2 ≠ .byte .cc) (hd : d → r2 ≠ .byte .dp)
    (h : execTfr r1 r2 s = .next t) : Spares m d s t := by
  have arms (w : Reg16) (x : State) : Spares m d x (execTfr.arms w x) := by
    rw [execTfr.arms]
    split
    · exact .armNmi x _
    · exact .refl x
  match r1, r2 with
  | .wide w1, .wide w2 =>
    cases h
    exact (Spares.set16 s w2 _).trans (arms w2 _)
  | .byte c1, .wide w2 =>
    cases h
    have hdraw : Spares m d s { s with draws := s.draws + 1 } := .of_eq rfl rfl
    exact hdraw.trans ((Spares.set16 _ w2 _).trans (arms w2 _))
  | .byte c1, .byte c2 =>
    cases h
    exact .set8 s (fun k => by simpa using hm k) (fun k => by simpa using hd k) _
  | .wide _, .byte _ => cases h

/-- An exchange writes CC or DP where it names that register (R312). -/
theorem execExg_spares {r1 r2 : AnyReg} (hm : m → r1 ≠ .byte .cc ∧ r2 ≠ .byte .cc)
    (hd : d → r1 ≠ .byte .dp ∧ r2 ≠ .byte .dp) (h : execExg r1 r2 s = .next t) : Spares m d s t := by
  match r1, r2 with
  | .wide w1, .wide w2 =>
    cases h
    have hset := (Spares.set16 (m := m) (d := d) s w1 (s.get16 w2)).trans (.set16 _ w2 (s.get16 w1))
    split
    · exact hset.trans (.armNmi _ _)
    · exact hset
  | .byte c1, .byte c2 =>
    cases h
    simp only [ne_eq, AnyReg.byte.injEq] at hm hd
    exact (Spares.set8 s (fun k => (hm k).1) (fun k => (hd k).1) _).trans
      (.set8 _ (fun k => (hm k).2) (fun k => (hd k).2) _)
  | .wide _, .byte _ => cases h
  | .byte _, .wide _ => cases h

theorem execPulu_spares {mask : Byte} (hm : m → mask.getLsbD 0 = false) (hd : d → mask.getLsbD 3 = false)
    (h : execPulu mask s = .next t) : Spares m d s t := by
  obtain ⟨x, hpull, hnext⟩ := Result.andThen_eq_next.1 h
  cases hnext
  have hx : Spares m d s x := .pullItems hm hd hpull
  split
  · exact hx.trans (.armNmi x _)
  · exact hx

end Sparing


/-! ## All of them -/

/-- What every instruction that is not listed as a writer of E, F and I or of DP keeps of them. -/
theorem exec_spares {i : Instr} {s t : State} (h : exec i s = .next t) :
    Spares (¬mayChangeMasks i) (¬mayChangeDp i) s t := by
  cases i with
  | abx => cases h; exact .of_eq rfl rfl
  | adca src | adcb src =>
    exact .operate8 (.binary addWithCarry_only addWithCarry_keeps (by decide)) (by decide) h
  | adda src | addb src => exact .operate8 (.binary addNoCarry_only addNoCarry_keeps (by decide)) (by decide) h
  | sbca src | sbcb src =>
    exact .operate8 (.binary subtractWithCarry_only subtractWithCarry_keeps (by decide)) (by decide) h
  | suba src | subb src => exact .operate8 (.binary subtract_only subtract_keeps (by decide)) (by decide) h
  | anda src | andb src => exact .operate8 (.binary andByte_only andByte_keeps (by decide)) (by decide) h
  | ora src | orb src => exact .operate8 (.binary orByte_only orByte_keeps (by decide)) (by decide) h
  | eora src | eorb src => exact .operate8 (.binary xorByte_only xorByte_keeps (by decide)) (by decide) h
  | lda src | ldb src => exact .operate8 (.binary loadByte_only loadByte_keeps (by decide)) (by decide) h
  | cmpa src | cmpb src => exact .compare8 (.binary subtract_only subtract_keeps (by decide)) h
  | bita src | bitb src => exact .compare8 (.binary andByte_only andByte_keeps (by decide)) h
  | addd src => exact .operate16 (.binary addWord_only addWord_keeps (by decide)) h
  | subd src => exact .operate16 (.binary subtractWord_only subtractWord_keeps (by decide)) h
  | ldd src | ldu src | ldx src | ldy src =>
    exact .operate16 (.binary loadWord_only loadWord_keeps (by decide)) h
  | lds src =>
    obtain ⟨x, hload, hnext⟩ := Result.andThen_eq_next.1 h
    cases hnext
    exact (Spares.operate16 (.binary loadWord_only loadWord_keeps (by decide)) hload).trans (.armNmi x _)
  | cmpd src | cmps src | cmpu src | cmpx src | cmpy src =>
    exact .compare16 (.binary subtractWord_only subtractWord_keeps (by decide)) h
  | neg o => exact .modifyMem (.unary negate_only negate_keeps (by decide)) h
  | com o => exact .modifyMem (.unary complement_only complement_keeps (by decide)) h
  | inc o => exact .modifyMem (.unary increment_only increment_keeps (by decide)) h
  | dec o => exact .modifyMem (.unary decrement_only decrement_keeps (by decide)) h
  | asl o | lsl o => exact .modifyMem (.unary shiftLeft_only shiftLeft_keeps (by decide)) h
  | asr o => exact .modifyMem (.unary shiftRightArith_only shiftRightArith_keeps (by decide)) h
  | lsr o => exact .modifyMem (.unary shiftRight_only shiftRight_keeps (by decide)) h
  | rol o => exact .modifyMem (.unary rotateLeft_only rotateLeft_keeps (by decide)) h
  | ror o => exact .modifyMem (.unary rotateRight_only rotateRight_keeps (by decide)) h
  | nega | negb => exact .modifyReg (.unary negate_only negate_keeps (by decide)) (by decide) h
  | coma | comb => exact .modifyReg (.unary complement_only complement_keeps (by decide)) (by decide) h
  | inca | incb => exact .modifyReg (.unary increment_only increment_keeps (by decide)) (by decide) h
  | deca | decb => exact .modifyReg (.unary decrement_only decrement_keeps (by decide)) (by decide) h
  | asla | aslb | lsla | lslb =>
    exact .modifyReg (.unary shiftLeft_only shiftLeft_keeps (by decide)) (by decide) h
  | asra | asrb =>
    exact .modifyReg (.unary shiftRightArith_only shiftRightArith_keeps (by decide)) (by decide) h
  | lsra | lsrb => exact .modifyReg (.unary shiftRight_only shiftRight_keeps (by decide)) (by decide) h
  | rola | rolb => exact .modifyReg (.unary rotateLeft_only rotateLeft_keeps (by decide)) (by decide) h
  | rora | rorb => exact .modifyReg (.unary rotateRight_only rotateRight_keeps (by decide)) (by decide) h
  | daa => exact .modifyReg (.unary decimalAdjust_only decimalAdjust_keeps (by decide)) (by decide) h
  | clr o => exact execClr_spares h
  | clra | clrb => cases h; exact clearReg_spares s (by decide)
  | tst o => exact execTst_spares h
  | tsta | tstb => cases h; exact .setNZ0 s _
  | mul => exact execMul_spares h
  | sex => exact execSex_spares h
  | andcc n | orcc n =>
    cases h
    exact .of_writer (by simp [mayChangeMasks]) rfl
  | leax p | leay p => exact .loadAddressZ h
  | leau p => exact .loadAddress h
  | leas p =>
    obtain ⟨x, hload, hnext⟩ := Result.andThen_eq_next.1 h
    cases hnext
    exact (Spares.loadAddress hload).trans (.armNmi x _)
  | sta o | stb o => exact .store8 h
  | std o | sts o | stu o | stx o | sty o => exact .store16 h
  | tfr r1 r2 =>
    exact execTfr_spares (fun k he => k (by simp [mayChangeMasks, he])) (fun k he => k (by simp [mayChangeDp, he])) h
  | exg r1 r2 =>
    refine execExg_spares (fun k => ?_) (fun k => ?_) h
    · constructor <;> exact fun he => k (by simp [mayChangeMasks, he])
    · constructor <;> exact fun he => k (by simp [mayChangeDp, he])
  | pshs mask | pshu mask => exact (Pushed.pushRegs h).spares
  | puls mask =>
    exact .pullItems (fun k => by simpa [mayChangeMasks] using k) (fun k => by simpa [mayChangeDp] using k) h
  | pulu mask =>
    exact execPulu_spares (fun k => by simpa [mayChangeMasks] using k) (fun k => by simpa [mayChangeDp] using k) h
  | bcc off | bcs off | beq off | bge off | bgt off | bhi off | bhs off | ble off | blo off | bls off | blt off
  | bmi off | bne off | bpl off | bvc off | bvs off => exact .branchIf h
  | lbhi off | lbls off | lbcc off | lbhs off | lbcs off | lblo off | lbne off | lbeq off | lbvc off | lbvs off
  | lbpl off | lbmi off | lbge off | lblt off | lbgt off | lble off => exact .branchIf h
  | bra off | lbra off => cases h; exact .of_eq rfl rfl
  | brn off | lbrn off | nop => cases h; exact .refl s
  | bsr off | lbsr off => exact .branchSubroutine h
  | jmp o => exact execJmp_spares h
  | jsr o => exact execJsr_spares h
  | rts => exact execRts_spares h
  | swi | swi2 | swi3 => exact .of_writer (by simp [mayChangeMasks]) (takeInterrupt_dp h)
  | cwai n => exact .of_writer (by simp [mayChangeMasks]) (execCwai_dp h)
  | rti => exact ⟨absurd (by simp [mayChangeMasks]), absurd (by simp [mayChangeDp])⟩
  | sync => cases h; exact .of_eq rfl rfl

/-- Settles O24: E, F and I are kept by every shape of instruction but the writers of CC as a whole. -/
theorem onlyCcWritersChangeMasks : Obligations.OnlyCcWritersChangeMasks :=
  fun _ _ _ h hno => (exec_spares h).masks hno

/-- Settles O25: DP is written by a transfer, an exchange or a pull that names it, and by RTI. -/
theorem onlyListedWriteDp : Obligations.OnlyListedWriteDp :=
  fun _ _ _ h hno => (exec_spares h).dp hno

end Sys2Proof.Machine

/-! # The decoder reads a block (R90, R110) -/

namespace Sys2Proof

/-- What was decoded, with more bytes after those that are left. -/
def Decoded.append {α : Type} (d : Decoded α) (more : List Byte) : Decoded α :=
  d.andThen fun i rest => .ok i (rest ++ more)

/-- A decoder that reads `n` bytes at most, and whose answer, once it has one, does not depend on the bytes after
them. -/
structure ReadsAtMost {α : Type} (n : Nat) (dec : List Byte → Decoded α) : Prop where
  append : ∀ bs more, dec bs ≠ .short → dec (bs ++ more) = (dec bs).append more
  length_le : ∀ {bs i rest}, dec bs = .ok i rest → bs.length ≤ rest.length + n

section Blocks
variable {α β : Type} {n k : Nat} {dec : List Byte → Decoded α}

theorem Decoded.andThen_eq_ok {d : Decoded α} {f : α → List Byte → Decoded β} {y : β} {rest : List Byte} :
    d.andThen f = .ok y rest ↔ ∃ x left, d = .ok x left ∧ f x left = .ok y rest := by
  cases d <;> simp [Decoded.andThen]

theorem ReadsAtMost.mono (h : ReadsAtMost n dec) (hnk : n ≤ k) : ReadsAtMost k dec :=
  ⟨h.append, fun hd => (h.length_le hd).trans (by omega)⟩

/-- A decoder that reads nothing. -/
theorem ReadsAtMost.pure (x : α) : ReadsAtMost 0 (Decoded.ok x) where
  append bs more _ := rfl
  length_le h := by
    cases h
    exact le_rfl

/-- A decoder that stops whatever the bytes are. -/
theorem ReadsAtMost.stop (d : Decoded α) (hd : ∀ x rest, d ≠ .ok x rest) : ReadsAtMost 0 fun _ => d where
  append _ more _ := by
    cases d with
    | ok x rest => exact absurd rfl (hd x rest)
    | short | undefinedOpcode | undefinedPostbyte | undefinedRegisterCode => rfl
  length_le h := absurd h (hd _ _)

/-- One byte, and then what it calls for. -/
theorem ReadsAtMost.of_cons (hnil : dec [] = .short) (hcons : ∀ b, ReadsAtMost n fun rest => dec (b :: rest)) :
    ReadsAtMost (n + 1) dec where
  append bs more hs := by
    cases bs with
    | nil => exact absurd hnil hs
    | cons b rest => exact (hcons b).append rest more hs
  length_le {bs i rest} h := by
    cases bs with
    | nil => exact Nat.zero_le _
    | cons b tail =>
      have := (hcons b).length_le h
      simp only [List.length_cons]
      omega

/-- Making something of what was decoded. -/
theorem ReadsAtMost.map (h : ReadsAtMost n dec) (f : α → β) :
    ReadsAtMost n fun bs => (dec bs).andThen fun x rest => .ok (f x) rest where
  append bs more hs := by
    have hs' : dec bs ≠ .short := fun he => hs (by rw [he]; rfl)
    simp only [h.append bs more hs']
    cases dec bs <;> rfl
  length_le hd := by
    obtain ⟨x, left, hx, he⟩ := Decoded.andThen_eq_ok.1 hd
    cases he
    exact h.length_le hx

/-- A shorter list than the one an instruction was read from is incomplete. -/
theorem ReadsAtMost.eq_short (h : ReadsAtMost n dec) {bs more : List Byte} {x : α}
    (hd : dec (bs ++ more) = .ok x []) (hmore : more ≠ []) : dec bs = .short := by
  by_contra hs
  rw [h.append bs more hs] at hd
  obtain ⟨_, left, -, he⟩ := Decoded.andThen_eq_ok.1 hd
  simp_all

end Blocks

/-! ## The parts of the decoder -/

theorem decodeByte_reads : ReadsAtMost 1 decodeByte := .of_cons rfl .pure

theorem decodeWord_reads : ReadsAtMost 2 decodeWord :=
  .of_cons rfl fun hi => .of_cons rfl fun lo => .pure (be16 hi lo)

theorem decodeRegPair_reads : ReadsAtMost 1 decodeRegPair := by
  refine .of_cons rfl fun pb => ?_
  simp only [decodeRegPair]
  cases decodeRegCode (pb.extractLsb' 4 4) with
  | none => exact .stop .undefinedRegisterCode (by simp)
  | some r1 =>
    cases decodeRegCode (pb.extractLsb' 0 4) with
    | none => exact .stop .undefinedRegisterCode (by simp)
    | some r2 => exact .pure (r1, r2)

/-- A postbyte is followed by two offset bytes at most (R145). -/
theorem decodeForm_reads (pb : Byte) (r : IndexReg) (ind : Bool) : ReadsAtMost 2 (decodeForm pb r ind) := by
  have pure (p : Indexed) : ReadsAtMost 2 (Decoded.ok p) := (ReadsAtMost.pure p).mono (by omega)
  have undefined : ReadsAtMost 2 fun _ => (.undefinedPostbyte : Decoded Indexed) :=
    (ReadsAtMost.stop _ (by simp)).mono (by omega)
  have byte (f : Byte → Indexed) := (decodeByte_reads.map f).mono (show 1 ≤ 2 by omega)
  unfold decodeForm
  split
  case h_1 | h_3 =>
    split
    · exact undefined
    · exact pure _
  case h_8 | h_11 => exact byte _
  case h_9 | h_12 => exact decodeWord_reads.map _
  case h_13 =>
    split
    · exact decodeWord_reads.map _
    · exact undefined
  case h_14 => exact undefined
  all_goals exact pure _

theorem decodeIndexed_reads : ReadsAtMost 3 decodeIndexed := by
  refine .of_cons rfl fun pb => ?_
  simp only [decodeIndexed]
  split
  · exact decodeForm_reads pb _ _
  · exact (ReadsAtMost.pure _).mono (by omega)

theorem Format.operands_reads (f : Format) : ReadsAtMost 3 f.operands := by
  cases f with
  | inherent i => exact (ReadsAtMost.pure i).mono (by omega)
  | immediate8 k | relative8 k | stackPostbyte k => exact (decodeByte_reads.map k).mono (by omega)
  | direct k => exact (decodeByte_reads.map fun n => k (.direct n)).mono (by omega)
  | immediate16 k | relative16 k => exact (decodeWord_reads.map k).mono (by omega)
  | extended k => exact (decodeWord_reads.map fun nn => k (.extended nn)).mono (by omega)
  | indexed k => exact decodeIndexed_reads.map k
  | registerPostbyte k => exact (decodeRegPair_reads.map fun p => k p.1 p.2).mono (by omega)

/-- After the opcode byte three operand bytes follow at most (R110). -/
theorem decodePage_cons_reads (page : Byte → Option Format) (op : Byte) :
    ReadsAtMost 3 fun rest => decodePage page (op :: rest) := by
  simp only [decodePage]
  cases page op with
  | none => exact (ReadsAtMost.stop .undefinedOpcode (by simp)).mono (by omega)
  | some f => exact f.operands_reads

theorem decodePage_reads (page : Byte → Option Format) : ReadsAtMost 4 (decodePage page) :=
  .of_cons rfl (decodePage_cons_reads page)

/-- An instruction has five bytes at most, and the bytes after it do not matter (R90, R110). -/
theorem decode_reads : ReadsAtMost Machine.maxLength decode := by
  refine .of_cons rfl fun b => ?_
  by_cases h2 : b = 0x10
  · simp only [h2, decode_page2]
    exact decodePage_reads page2
  by_cases h3 : b = 0x11
  · simp only [h3, decode_page3]
    exact decodePage_reads page3
  simp only [decode_page1 h2 h3]
  exact (decodePage_cons_reads page1 b).mono (by omega)

end Sys2Proof

namespace Sys2Proof.Machine

open Sys2Proof.Claims

/-! ## A step runs the instruction at PC (R407 step 5) -/

/-- The first byte of a block that lies in memory, and the rest of the block. -/
theorem holds_cons {s : State} {addr : Word} {b : Byte} {bs : List Byte} :
    Holds s addr (b :: bs) ↔ s.Reads addr b ∧ Holds s (addr + 1#16) bs := by
  have hnext (k : Nat) : addr + BitVec.ofNat 16 (k + 1) = addr + 1#16 + BitVec.ofNat 16 k := by
    rw [Nat.add_comm, BitVec.ofNat_add, BitVec.add_assoc]
  constructor
  · intro h
    refine ⟨by simpa using h 0 b rfl, fun k v hk => ?_⟩
    rw [← hnext]
    exact h (k + 1) v hk
  · rintro ⟨hb, hbs⟩ k v hk
    cases k with
    | zero =>
      cases hk
      simpa using hb
    | succ k =>
      rw [hnext]
      exact hbs k v hk

/-- The fetch reads the bytes of an instruction one after the other, and no more (R78, R110). -/
theorem fetchInstr_of_holds {i : Instr} {fuel : Nat} {got more : List Byte} {s : State}
    (hd : decode (got ++ more) = .ok i []) (hfuel : more.length ≤ fuel) (hs : Holds s s.pc more) :
    fetchInstr fuel got s = .next (i, { s with pc := s.pc + BitVec.ofNat 16 more.length }) := by
  induction more generalizing fuel got s with
  | nil =>
    rw [List.append_nil] at hd
    rw [fetchInstr.eq_def, hd]
    simp
  | cons b more ih =>
    cases fuel with
    | zero => simp at hfuel
    | succ fuel =>
      obtain ⟨hb, hmore⟩ := holds_cons.1 hs
      have hshort : decode got = .short := decode_reads.eq_short hd (List.cons_ne_nil b more)
      rw [fetchInstr_of_short hshort hb, ih (by simpa using hd) (by simpa using hfuel) hmore]
      simp [Nat.add_comm more.length, BitVec.ofNat_add, BitVec.add_assoc]

/-- Settles O13: the fetch ends at the end of the block, and the instruction is executed on the state it leaves. -/
theorem stepRunsDecodedInstruction : Obligations.StepRunsDecodedInstruction := by
  intro s bs i _ hd hrun hs
  have hlen : bs.length ≤ maxLength := by simpa using decode_reads.length_le hd
  have hfetch := fetchInstr_of_holds (s := s.sampled) (got := []) hd hlen hs
  rw [step_of_runsInstruction hrun, runInstr, hfetch]
  rfl

end Sys2Proof.Machine

/-! # Accesses of memory (R62 to R70) -/

namespace Sys2Proof.Machine

open Sys2Proof.Claims

section Accesses
variable {s : State} {addr : Word} {acc : Config.Access} {d : Config.Device}

/-- A device takes a plain access, and every access where its reads have no side effects (R68). -/
theorem allows_iff : d.allows acc = true ↔ acc = .plain ∨ d.sensitive = false := by
  cases acc <;> simp [Config.Device.allows]

theorem read8_of_unmapped (h : s.kind addr = .unmapped) : read8 acc addr s = .fault (.unmapped addr) := by
  simp [read8, h]

theorem write8_of_unmapped (v : Byte) (h : s.kind addr = .unmapped) :
    write8 acc addr v s = .fault (.unmapped addr) := by
  simp [write8, h]

theorem write8_of_rom (v : Byte) (h : s.kind addr = .rom) : write8 acc addr v s = .fault (.romWrite addr) := by
  simp [write8, h]

theorem read8_of_unwritten (hk : s.kind addr = .ram ∨ s.kind addr = .rom) (hb : s.byteAt addr = none) :
    read8 acc addr s = .fault (.unwritten addr) := by
  rcases hk with hk | hk <;> simp [read8, readHeld, hk, hb]

theorem read8_of_serves (h : Serves s acc addr d) :
    read8 acc addr s = .next (Config.deviceByte s.deviceLog d addr, s.toDevice d addr none) :=
  read8_eq_next.2 (.inr ⟨d, h.1, allows_iff.2 h.2, rfl, rfl⟩)

theorem write8_of_serves (v : Byte) (h : Serves s acc addr d) :
    write8 acc addr v s = .next (s.toDevice d addr (some v)) :=
  write8_eq_next.2 (.inr ⟨d, h.1, allows_iff.2 h.2, rfl⟩)

/-- A word written to devices: each takes its byte, the high byte first (R63). -/
theorem write16_of_serves {d' : Config.Device} (v : Word) (h : Serves s acc addr d)
    (h' : Serves s acc (addr + 1#16) d') :
    write16 acc addr v s =
      .next ((s.toDevice d addr (some (hi8 v))).toDevice d' (addr + 1#16) (some (lo8 v))) := by
  rw [write16, write8_of_serves (hi8 v) h]
  exact write8_of_serves (lo8 v) h'

/-- A device refuses what it does not allow, reads and writes alike (log 6). -/
theorem access_refused (v : Byte) (hk : s.kind addr = .device d) (ha : d.allows acc = false) :
    read8 acc addr s = .refused (.device addr) ∧ write8 acc addr v s = .refused (.device addr) := by
  simp [read8, write8, hk, ha]

/-- The frame of a byte written in RAM. -/
theorem ChangesOnly.poke (s : State) (p : Word) (v : Byte) : ChangesOnly [] [] [p] s (s.poke p v) where
  regs r _ := by cases r <;> rfl
  flags _ _ := rfl
  bytes q hq := by rw [State.byteAt_poke, if_neg (by simpa using hq)]
  armed := rfl
  pending := rfl
  runState := rfl
  memMap := rfl
  policies := rfl
  inputs := rfl

/-- Two neighbouring addresses differ, at the wrap from FFFFH to 0000H too (R65). -/
theorem ne_add_one (addr : Word) : addr ≠ addr + 1#16 := by bv_omega

/-- What lies where a word was written: the high byte at the lower address (R62). -/
theorem byteAt_poke_word (s : State) (addr v : Word) :
    ((s.poke addr (hi8 v)).poke (addr + 1#16) (lo8 v)).byteAt addr = some (hi8 v) ∧
      ((s.poke addr (hi8 v)).poke (addr + 1#16) (lo8 v)).byteAt (addr + 1#16) = some (lo8 v) :=
  ⟨by rw [State.byteAt_poke, if_neg (ne_add_one addr), State.byteAt_poke_same], State.byteAt_poke_same _ _ _⟩

end Accesses

/-- Settles O8, by what stands at the address. -/
theorem accessesThatStop : Obligations.AccessesThatStop := by
  intro acc addr v s
  refine ⟨fun hk => ⟨read8_of_unmapped hk, write8_of_unmapped v hk⟩, fun hk => write8_of_rom v hk,
    fun hk hb => read8_of_unwritten hk hb, fun h => read8_of_reads acc h, fun hk => ?ram,
    fun d => ⟨fun h => ⟨⟨_, read8_of_serves h⟩, write8_of_serves v h⟩, fun hk hacc hsens => ?refuses⟩⟩
  case ram =>
    exact ⟨s.poke addr v, write8_of_ram acc v hk, State.byteAt_poke_same s addr v, .poke s addr v, rfl⟩
  case refuses =>
    exact access_refused v hk (by rw [hacc, Config.Device.allows, hsens]; rfl)

/-- Settles O7: the two bytes of the word lie at two different addresses, so each is read back. -/
theorem wordStoreReadsBack : Obligations.WordStoreReadsBack := by
  intro acc addr v s hlow hhigh
  let t := (s.poke addr (hi8 v)).poke (addr + 1#16) (lo8 v)
  obtain ⟨hbyte, hbyte'⟩ := byteAt_poke_word s addr v
  have hread : t.Reads addr (hi8 v) := ⟨.inl hlow, hbyte⟩
  have hread' : t.Reads (addr + 1#16) (lo8 v) := ⟨.inl hhigh, hbyte'⟩
  refine ⟨t, write16_of_ram acc v hlow hhigh, ?_, hread, hread', ?_,
    (ChangesOnly.poke s addr _).trans (.poke _ (addr + 1#16) _)⟩
  · rw [read16_of_reads acc ⟨hread, hread'⟩, be16_hi8_lo8]
  · rw [← be16_toNat, be16_hi8_lo8]

end Sys2Proof.Machine

/-! # Operands in memory (R140, R162) -/

namespace Sys2Proof.Machine

section SourceOperands
variable {m : Mem} {s t : State} {ea : Word}

theorem source8_mem (acc : Config.Access) (h : effectiveAddress m s = .next (ea, t)) :
    source8 acc (.mem m) s = read8 acc ea t := by
  simp [source8, h]

theorem source16_mem (acc : Config.Access) (h : effectiveAddress m s = .next (ea, t)) :
    source16 acc (.mem m) s = read16 acc ea t := by
  simp [source16, h]

/-- A word is read byte by byte, the high byte first (R63). -/
theorem read16_of_read8 {acc : Config.Access} {addr : Word} {u w : State} {hi lo : Byte}
    (hhi : read8 acc addr t = .next (hi, u)) (hlo : read8 acc (addr + 1#16) u = .next (lo, w)) :
    read16 acc addr t = .next (be16 hi lo, w) := by
  simp [read16, hhi, hlo]

end SourceOperands

/-- Settles O31: the source is the read at the address, and both change what `Addressed` says. -/
theorem sourceOperandsReadMemory : Obligations.SourceOperandsReadMemory := by
  refine ⟨fun acc m s t ea haddr => ⟨(effectiveAddress_state haddr).changes, source8_mem acc haddr, ?byte, ?word,
    ?bytes⟩, fun acc src s t v h => (source8_state h).changes, fun acc src s t v h => (source16_state h).changes⟩
  case byte =>
    intro v hv
    rw [source8_mem acc haddr, read8_of_reads acc hv]
  case word =>
    intro hi lo hword
    exact ⟨be16 hi lo, by rw [source16_mem acc haddr, read16_of_reads acc hword], be16_toNat hi lo⟩
  case bytes =>
    intro u w hi lo hhi hlo
    exact ⟨be16 hi lo, by rw [source16_mem acc haddr, read16_of_read8 hhi hlo], be16_toNat hi lo⟩

end Sys2Proof.Machine

/-! # Instructions without a write (R66) -/

namespace Sys2Proof.Machine

section Unstored
variable {s t : State}

theorem Addressed.mem {upd : List RegName} (h : Addressed upd s t) : t.mem = s.mem := by
  obtain ⟨_, rfl | ⟨_, _, rfl, -⟩⟩ := h <;> simp

/-! ## Shapes of instructions, for operations that write flags alone -/

theorem operate8_mem {op : Byte → Byte → State → Byte × State} (hop : ∀ a v x, FlagsOnly x (op a v x).2)
    {acc : Config.Access} {r : Reg8} {src : Src8} (h : operate8 acc r src op s = .next t) : t.mem = s.mem := by
  obtain ⟨⟨v, x⟩, hsrc, hnext⟩ := Result.andThen_eq_next.1 h
  cases hnext
  exact (State.set8_mem _ r _).trans ((hop _ v x).mem.trans (source8_state hsrc).mem)

theorem compare8_mem {op : Byte → Byte → State → Byte × State} (hop : ∀ a v x, FlagsOnly x (op a v x).2)
    {r : Reg8} {src : Src8} (h : compare8 r src op s = .next t) : t.mem = s.mem := by
  obtain ⟨⟨v, x⟩, hsrc, hnext⟩ := Result.andThen_eq_next.1 h
  cases hnext
  exact (hop _ v x).mem.trans (source8_state hsrc).mem

theorem operate16_mem {op : Word → Word → State → Word × State} (hop : ∀ a v x, FlagsOnly x (op a v x).2)
    {acc : Config.Access} {r : Reg16} {src : Src16} (h : operate16 acc r src op s = .next t) : t.mem = s.mem := by
  obtain ⟨⟨v, x⟩, hsrc, hnext⟩ := Result.andThen_eq_next.1 h
  cases hnext
  exact (State.set16_mem _ r _).trans ((hop _ v x).mem.trans (source16_state hsrc).mem)

theorem compare16_mem {op : Word → Word → State → Word × State} (hop : ∀ a v x, FlagsOnly x (op a v x).2)
    {r : Reg16} {src : Src16} (h : compare16 r src op s = .next t) : t.mem = s.mem := by
  obtain ⟨⟨v, x⟩, hsrc, hnext⟩ := Result.andThen_eq_next.1 h
  cases hnext
  exact (hop _ v x).mem.trans (source16_state hsrc).mem

theorem modifyReg_mem {op : Byte → State → Byte × State} (hop : ∀ v x, FlagsOnly x (op v x).2) {r : Reg8}
    (h : modifyReg r op s = .next t) : t.mem = s.mem := by
  cases h
  exact (State.set8_mem _ r _).trans (hop _ s).mem

theorem loadAddress_mem {r : Reg16} {p : Indexed} (h : loadAddress r p s = .next t) : t.mem = s.mem := by
  obtain ⟨⟨ea, x⟩, haddr, hnext⟩ := Result.andThen_eq_next.1 h
  cases hnext
  exact (State.set16_mem x r ea).trans (indexedAddress_state haddr).mem

theorem loadAddressZ_mem {r : Reg16} {p : Indexed} (h : loadAddressZ r p s = .next t) : t.mem = s.mem := by
  obtain ⟨⟨ea, x⟩, haddr, hnext⟩ := Result.andThen_eq_next.1 h
  cases hnext
  exact (State.set16_mem x r ea).trans (indexedAddress_state haddr).mem

theorem branchIf_mem {k : Cond} {off : Word} (h : branchIf k off s = .next t) : t.mem = s.mem := by
  cases h
  split <;> rfl

/-! ## The instructions whose meaning is no shape of its own -/

theorem execTst_mem {o : Mem} (h : execTst o s = .next t) : t.mem = s.mem := by
  obtain ⟨⟨v, x⟩, hsrc, hnext⟩ := Result.andThen_eq_next.1 h
  cases hnext
  exact (source8_state (src := .mem o) hsrc).mem

theorem execJmp_mem {o : Mem} (h : execJmp o s = .next t) : t.mem = s.mem := by
  obtain ⟨⟨ea, x⟩, haddr, hnext⟩ := Result.andThen_eq_next.1 h
  cases hnext
  exact (effectiveAddress_state haddr).mem

theorem execRts_mem (h : execRts s = .next t) : t.mem = s.mem := by
  obtain ⟨⟨v, x⟩, hpull, hnext⟩ := Result.andThen_eq_next.1 h
  cases hnext
  obtain ⟨_, rfl⟩ := pull16_state hpull
  exact State.setSp_mem _ _ _

theorem execPulu_mem {mask : Byte} (h : execPulu mask s = .next t) : t.mem = s.mem := by
  obtain ⟨x, hpull, hnext⟩ := Result.andThen_eq_next.1 h
  cases hnext
  have hx : x.mem = s.mem := (Pulled.pullRegs hpull).mem
  split <;> exact hx

theorem execTfr_mem {r1 r2 : AnyReg} (h : execTfr r1 r2 s = .next t) : t.mem = s.mem := by
  have arms (w : Reg16) (x : State) : (execTfr.arms w x).mem = x.mem := by
    rw [execTfr.arms]
    split <;> rfl
  match r1, r2 with
  | .wide w1, .wide w2 =>
    cases h
    exact (arms w2 _).trans (State.set16_mem s w2 _)
  | .byte c1, .wide w2 =>
    cases h
    exact (arms w2 _).trans (State.set16_mem _ w2 _)
  | .byte c1, .byte c2 =>
    cases h
    exact State.set8_mem s c2 _
  | .wide _, .byte _ => cases h

theorem execExg_mem {r1 r2 : AnyReg} (h : execExg r1 r2 s = .next t) : t.mem = s.mem := by
  match r1, r2 with
  | .wide w1, .wide w2 =>
    cases h
    have hset : ((s.set16 w1 (s.get16 w2)).set16 w2 (s.get16 w1)).mem = s.mem := by simp
    split <;> exact hset
  | .byte c1, .byte c2 =>
    cases h
    simp
  | .wide _, .byte _ => cases h
  | .byte _, .wide _ => cases h

end Unstored

/-! ## All of them -/

/-- An instruction without a write in R66's table keeps memory as it is. -/
theorem exec_mem {i : Instr} {s t : State} (h : exec i s = .next t) (hno : mayStore i = false) : t.mem = s.mem := by
  cases i with
  | neg _ | com _ | inc _ | dec _ | asl _ | lsl _ | asr _ | lsr _ | rol _ | ror _ | clr _ | sta _ | stb _ | std _
  | sts _ | stu _ | stx _ | sty _ | pshs _ | pshu _ | bsr _ | lbsr _ | jsr _ | swi | swi2 | swi3 | cwai _ =>
    cases hno
  | adca src | adcb src => exact operate8_mem addWithCarry_only h
  | adda src | addb src => exact operate8_mem addNoCarry_only h
  | sbca src | sbcb src => exact operate8_mem subtractWithCarry_only h
  | suba src | subb src => exact operate8_mem subtract_only h
  | anda src | andb src => exact operate8_mem andByte_only h
  | ora src | orb src => exact operate8_mem orByte_only h
  | eora src | eorb src => exact operate8_mem xorByte_only h
  | lda src | ldb src => exact operate8_mem loadByte_only h
  | cmpa src | cmpb src => exact compare8_mem subtract_only h
  | bita src | bitb src => exact compare8_mem andByte_only h
  | addd src => exact operate16_mem addWord_only h
  | subd src => exact operate16_mem subtractWord_only h
  | ldd src | ldu src | ldx src | ldy src => exact operate16_mem loadWord_only h
  | lds src =>
    obtain ⟨x, hload, hnext⟩ := Result.andThen_eq_next.1 h
    cases hnext
    exact (State.armNmi_mem x _).trans (operate16_mem loadWord_only hload)
  | cmpd src | cmps src | cmpu src | cmpx src | cmpy src => exact compare16_mem subtractWord_only h
  | nega | negb => exact modifyReg_mem negate_only h
  | coma | comb => exact modifyReg_mem complement_only h
  | inca | incb => exact modifyReg_mem increment_only h
  | deca | decb => exact modifyReg_mem decrement_only h
  | asla | aslb | lsla | lslb => exact modifyReg_mem shiftLeft_only h
  | asra | asrb => exact modifyReg_mem shiftRightArith_only h
  | lsra | lsrb => exact modifyReg_mem shiftRight_only h
  | rola | rolb => exact modifyReg_mem rotateLeft_only h
  | rora | rorb => exact modifyReg_mem rotateRight_only h
  | daa => exact modifyReg_mem decimalAdjust_only h
  | abx | clra | clrb | tsta | tstb | mul | sex | andcc _ | orcc _ | bra _ | brn _ | lbra _ | lbrn _ | nop | sync =>
    cases h
    rfl
  | tst o => exact execTst_mem h
  | leax p | leay p => exact loadAddressZ_mem h
  | leau p => exact loadAddress_mem h
  | leas p =>
    obtain ⟨x, hload, hnext⟩ := Result.andThen_eq_next.1 h
    cases hnext
    exact (State.armNmi_mem x _).trans (loadAddress_mem (r := .s) hload)
  | tfr r1 r2 => exact execTfr_mem h
  | exg r1 r2 => exact execExg_mem h
  | puls mask => exact (Pulled.pullRegs h).mem
  | pulu mask => exact execPulu_mem h
  | bcc _ | bcs _ | beq _ | bge _ | bgt _ | bhi _ | bhs _ | ble _ | blo _ | bls _ | blt _ | bmi _ | bne _ | bpl _
  | bvc _ | bvs _ | lbhi _ | lbls _ | lbcc _ | lbhs _ | lbcs _ | lblo _ | lbne _ | lbeq _ | lbvc _ | lbvs _ | lbpl _
  | lbmi _ | lbge _ | lblt _ | lbgt _ | lble _ => exact branchIf_mem h
  | jmp o => exact execJmp_mem h
  | rts => exact execRts_mem h
  | rti => exact (Pulled.returnFromInterrupt h).mem

/-- Settles O26: what every instruction keeps, and memory where it has no write. -/
theorem nonStoringKeepMemory : Obligations.NonStoringKeepMemory := by
  intro i s t h
  have hx : Executed i s t := (exec_sound i s).next t h
  exact ⟨exec_mem h, hx.storage.stores.map, hx.storage.stores.policies, congrArg (fun c => c.2.2.2) hx.control⟩

end Sys2Proof.Machine

/-! # Operations on an operand in memory -/

namespace Sys2Proof.Machine

open Sys2Proof.Claims

/-! ## How an instruction with a computed address completes -/

section Completing
variable {i : Instr} {log : List Config.DeviceAccess} {upd regs : List RegName} {flags : List Flag}
  {bytes : List Word} {s t u : State}

/-- An instruction that arms nothing: it is enough to give its frame from the state after its address was computed. -/
theorem completesWith_of_addressed {P : State → Prop} (haddr : Addressed upd s t) (hexec : exec i s = .next u)
    (hframe : ChangesOnly regs flags bytes t u) (hlog : u.deviceLog = log) (hP : P u) :
    CompletesWith log i s t false upd regs flags bytes P :=
  ⟨u, hexec, hframe, haddr.changes.trans hframe, hlog, hP⟩

theorem Addressed.flag (h : Addressed upd s t) (g : Flag) : t.flag g = s.flag g := by
  obtain ⟨_, rfl | ⟨_, _, rfl, -⟩⟩ := h <;> simp

theorem Addressed.policies (h : Addressed upd s t) : t.policies = s.policies := by
  obtain ⟨_, rfl | ⟨_, _, rfl, -⟩⟩ := h <;> simp

/-- Only an index register can differ (R153 to R156). -/
theorem Addressed.get8 (h : Addressed upd s t) (r : Reg8) : t.get8 r = s.get8 r := by
  obtain ⟨_, rfl | ⟨_, _, rfl, -⟩⟩ := h <;> cases r <;> simp [State.get8]

/-- A byte of RAM written after a change. -/
theorem ChangesOnly.andPoke (h : ChangesOnly regs flags bytes s t) (p : Word) (v : Byte) :
    ChangesOnly regs flags (bytes ++ [p]) s (t.poke p v) :=
  (h.trans (.poke t p v)).mono (by simp) (by simp) (by simp)

/-- A device reached after a change is no change that a frame sees. -/
theorem ChangesOnly.andReach (h : ChangesOnly regs flags bytes s t) (d : Config.Device) (addr : Word)
    (w : Option Byte) : ChangesOnly regs flags bytes s (t.toDevice d addr w) :=
  h.withLog _

end Completing

/-! ## N, Z and V of a value (R204, R259) -/

section ValueFlags
variable {w : Nat} (s : State)

/-- The flags a byte leaves (R259), in any state that has taken over the CC with them. -/
theorem NZ8_of_setNZ0 {u : State} {v : Byte} (h : u.cc = (s.setNZ0 v).cc) : NZ8 v.toNat u ∧ u.flag .v = false := by
  simp [NZ8, State.flag_congr h, isNeg_byte, isZero_iff]

/-- The flags a word leaves (R259), in any state that has taken over the CC with them. -/
theorem NZ16_of_setNZ0 {u : State} {v : Word} (h : u.cc = (s.setNZ0 v).cc) : NZ16 v.toNat u ∧ u.flag .v = false := by
  simp [NZ16, State.flag_congr h, isNeg_word, isZero_iff]

theorem setNZ0_changes (v : BitVec w) : ChangesOnly [] [.n, .z, .v] [] s (s.setNZ0 v) :=
  (FlagsOnly.setNZ0 s v).changes [] [] fun g hg => by
    simp only [List.mem_cons, List.not_mem_nil, or_false, not_or] at hg
    simp [hg]

end ValueFlags

/-! ## TST -/

/-- TST of an accumulator. -/
theorem tst_accumulator {i : Instr} {s : State} {r : Reg8} (hi : exec i s = .next (s.setNZ0 (s.get8 r))) :
    Completes i s s false [] [] [.n, .z, .v] [] fun u => NZ8 (s.get8 r).toNat u ∧ u.flag .v = false :=
  completesWith_of_addressed (.refl [] s) hi (setNZ0_changes s _) (by simp) (NZ8_of_setNZ0 s (by simp))

/-- Settles O45: the value is read, and its flags are written. -/
theorem tstSetsNAndZ : Obligations.TstSetsNAndZ := by
  intro s
  refine ⟨tst_accumulator (r := .a) rfl, tst_accumulator (r := .b) rfl, fun m t w ea v haddr hread => ?_⟩
  have hsrc : source8 .other (.mem m) s = .next (v, w) := (source8_mem .other haddr).trans hread
  have hexec : exec (.tst m) s = .next (w.setNZ0 v) := by simp [exec, execTst, hsrc]
  exact completesWith_of_addressed (source8_state hsrc) hexec (setNZ0_changes w v) (by simp)
    (NZ8_of_setNZ0 w (by simp))

/-! ## Stores -/

section Stores
variable {i : Instr} {m : Mem} {s t : State} {ea : Word}

theorem store8_ram {r : Reg8} (hi : exec i s = store8 r m s) (haddr : effectiveAddress m s = .next (ea, t))
    (hea : t.Writes ea) :
    Completes i s t false (updatesMem m) [] [.n, .z, .v] [ea] fun u =>
      u.byteAt ea = some (t.get8 r) ∧ NZ8 (t.get8 r).toNat u ∧ u.flag .v = false := by
  have hexec : exec i s = .next ((t.setNZ0 (t.get8 r)).poke ea (t.get8 r)) := by
    rw [hi, store8, haddr]
    exact write8_of_ram .plain _ hea
  exact completesWith_of_addressed (effectiveAddress_state haddr) hexec
    ((setNZ0_changes t _).andPoke ea _) rfl ⟨State.byteAt_poke_same _ ea _, NZ8_of_setNZ0 t (by simp)⟩

theorem store8_device {r : Reg8} {d : Config.Device} (hi : exec i s = store8 r m s)
    (haddr : effectiveAddress m s = .next (ea, t)) (hd : t.kind ea = .device d) :
    CompletesWith (⟨d, ea, some (t.get8 r)⟩ :: t.deviceLog) i s t false (updatesMem m) [] [.n, .z, .v] [] fun u =>
      NZ8 (t.get8 r).toNat u ∧ u.flag .v = false := by
  have hexec : exec i s = .next ((t.setNZ0 (t.get8 r)).toDevice d ea (some (t.get8 r))) := by
    rw [hi, store8, haddr]
    exact write8_of_serves _ ⟨hd, .inl rfl⟩
  exact completesWith_of_addressed (effectiveAddress_state haddr) hexec
    ((setNZ0_changes t _).andReach d ea _) (by simp) (NZ8_of_setNZ0 t (by simp))

/-- The two bytes of a word, as the statements give them. -/
theorem hi8_eq_ofNat (v : Word) : hi8 v = BitVec.ofNat 8 (v.toNat / 256) := by
  rw [← hi8_toNat, BitVec.ofNat_toNat, BitVec.setWidth_eq]

theorem lo8_eq_ofNat (v : Word) : lo8 v = BitVec.ofNat 8 (v.toNat % 256) := by
  rw [← lo8_toNat, BitVec.ofNat_toNat, BitVec.setWidth_eq]

theorem store16_ram {r : Reg16} (hi : exec i s = store16 r m s) (haddr : effectiveAddress m s = .next (ea, t))
    (hea : t.Writes ea) (hea' : t.Writes (ea + 1#16)) :
    Completes i s t false (updatesMem m) [] [.n, .z, .v] [ea, ea + 1#16] fun u =>
      u.byteAt ea = some (hi8 (t.get16 r)) ∧ u.byteAt (ea + 1#16) = some (lo8 (t.get16 r)) ∧
        NZ16 (t.get16 r).toNat u ∧ u.flag .v = false := by
  have hexec : exec i s = .next (((t.setNZ0 (t.get16 r)).poke ea (hi8 (t.get16 r))).poke (ea + 1#16)
      (lo8 (t.get16 r))) := by
    rw [hi, store16, haddr]
    exact write16_of_ram .plain _ hea hea'
  obtain ⟨hhi, hlo⟩ := byteAt_poke_word (t.setNZ0 (t.get16 r)) ea (t.get16 r)
  exact completesWith_of_addressed (effectiveAddress_state haddr) hexec
    (((setNZ0_changes t _).andPoke ea _).andPoke (ea + 1#16) _) (by simp)
    ⟨hhi, hlo, NZ16_of_setNZ0 t (by simp)⟩

theorem store16_device {r : Reg16} {d d' : Config.Device} (hi : exec i s = store16 r m s)
    (haddr : effectiveAddress m s = .next (ea, t)) (hd : t.kind ea = .device d)
    (hd' : t.kind (ea + 1#16) = .device d') :
    CompletesWith (⟨d', ea + 1#16, some (lo8 (t.get16 r))⟩ :: ⟨d, ea, some (hi8 (t.get16 r))⟩ :: t.deviceLog)
      i s t false (updatesMem m) [] [.n, .z, .v] [] fun u => NZ16 (t.get16 r).toNat u ∧ u.flag .v = false := by
  have hexec : exec i s = .next (((t.setNZ0 (t.get16 r)).toDevice d ea (some (hi8 (t.get16 r)))).toDevice d'
      (ea + 1#16) (some (lo8 (t.get16 r)))) := by
    rw [hi, store16, haddr]
    exact write16_of_serves _ ⟨hd, .inl rfl⟩ ⟨hd', .inl rfl⟩
  exact completesWith_of_addressed (effectiveAddress_state haddr) hexec
    (((setNZ0_changes t _).andReach d ea _).andReach d' _ _) (by simp) (NZ16_of_setNZ0 t (by simp))

end Stores

theorem exec_wordStore {row : (Mem → Instr) × Reg16} (hrow : row ∈ wordStores) (m : Mem) (s : State) :
    exec (row.1 m) s = store16 row.2 m s := by
  simp only [wordStores, List.mem_cons, List.not_mem_nil, or_false] at hrow
  rcases hrow with rfl | rfl | rfl | rfl | rfl <;> rfl

/-- Settles O47: every store is `store8` or `store16` of its register, as it is after the address was computed. -/
theorem storesWriteRegister : Obligations.StoresWriteRegister := by
  refine ⟨fun row hrow m s t ea haddr => ?bytes, fun row hrow m s t ea haddr => ?words⟩
  case bytes =>
    have hi : exec (row.1 m) s = store8 row.2 m s := by
      simp only [List.mem_cons, List.not_mem_nil, or_false] at hrow
      rcases hrow with rfl | rfl <;> rfl
    rw [← (effectiveAddress_state haddr).get8]
    exact ⟨store8_ram hi haddr, fun d => store8_device hi haddr⟩
  case words =>
    have hi := exec_wordStore hrow m s
    simp only [← hi8_eq_ofNat, ← lo8_eq_ofNat]
    exact ⟨store16_ram hi haddr, fun d d' => store16_device hi haddr⟩

end Sys2Proof.Machine

/-! # One-byte operations with their effects (R222 to R228, R262 to R279) -/

namespace Sys2Proof.Machine

open Sys2Proof.Claims

/-! ## Bits and shifts of a byte as numbers -/

theorem byte_beq (v : Byte) {n : Nat} (hn : n < 256) : (v == BitVec.ofNat 8 n) = decide (v.toNat = n) := by
  rw [Bool.eq_iff_iff]
  simp [BitVec.toNat_eq, Nat.mod_eq_of_lt hn]

theorem getElem_zero (v : Byte) : v[0] = decide (v.toNat % 2 = 1) := by
  rw [← BitVec.getLsbD_eq_getElem, BitVec.getLsbD, Nat.testBit_zero]

theorem getElem_seven (v : Byte) : v[7] = decide (128 ≤ v.toNat) := by
  rw [← isNeg_byte, isNeg, BitVec.msb_eq_getLsbD_last, BitVec.getLsbD_eq_getElem]

/-- V of the left shifts (R262, R276). -/
theorem getElem_seven_xor_six (v : Byte) : (v[7] ^^ v[6]) = topBitsDiffer v.toNat := by
  have hv := v.isLt
  rw [Bool.eq_iff_iff]
  simp only [← BitVec.getLsbD_eq_getElem, BitVec.getLsbD, Nat.testBit_eq_decide_div_mod_eq, topBitsDiffer,
    bne_iff_ne, ne_eq, decide_eq_decide, decide_eq_true_eq]
  omega

theorem xor_ones_toNat (v : Byte) : (v ^^^ 0xFF#8).toNat = 255 - v.toNat :=
  (congrArg BitVec.toNat (BitVec.xor_allOnes (x := v))).trans BitVec.toNat_not

theorem shiftLeft_toNat (v : Byte) : (v <<< 1).toNat = 2 * v.toNat % 256 := by
  rw [BitVec.toNat_shiftLeft, Nat.shiftLeft_eq, Nat.mul_comm]

theorem shiftRight_toNat (v : Byte) : (v >>> 1).toNat = v.toNat / 2 := by
  rw [BitVec.toNat_ushiftRight, Nat.shiftRight_eq_div_pow]

/-- ASR keeps bit 7 (R264). -/
theorem shiftRight_or_sign_toNat :
    ∀ v : Byte, ((v >>> 1) ||| (v &&& 0x80#8)).toNat = v.toNat / 2 + if 128 ≤ v.toNat then 128 else 0 := by decide

/-- ROL: the old C enters bit 0 (R276). -/
theorem shiftLeft_or_carry_toNat : ∀ (v : Byte) (c : Bool),
    ((v <<< 1) ||| BitVec.ofNat 8 (bit01 c)).toNat = 2 * v.toNat % 256 + if c then 1 else 0 := by decide

/-- ROR: the old C enters bit 7 (R278). -/
theorem shiftRight_or_carry_toNat : ∀ (v : Byte) (c : Bool),
    ((v >>> 1) ||| (BitVec.ofNat 8 (bit01 c) <<< 7)).toNat = v.toNat / 2 + if c then 128 else 0 := by decide

/-! ## NEG's subtraction from zero -/

theorem sub8_zero_r (v : Byte) : (sub8 0#8 v false).r.toNat = (256 - v.toNat) % 256 := by
  have hr := sub8_r 0#8 v false
  have hv := v.isLt
  simp only [BitVec.toNat_ofNat, Nat.zero_mod, bit01, Bool.false_eq_true, if_false] at hr
  omega

theorem sub8_zero_v (v : Byte) : (sub8 0#8 v false).v = decide (v.toNat = 128) := by
  have hv := v.isLt
  rw [sub8_v, decide_eq_decide, BitVec.toInt_eq_toNat_cond v]
  simp only [BitVec.toInt_zero, bit01, Bool.false_eq_true, if_false]
  split <;> omega

theorem sub8_zero_c (v : Byte) : (sub8 0#8 v false).c = decide (v.toNat ≠ 0) := by
  rw [sub8_c, decide_eq_decide]
  simp only [BitVec.toNat_ofNat, Nat.zero_mod, bit01, Bool.false_eq_true, if_false]
  omega

/-! ## Effects -/

/-- An operation on a byte gives the new byte and the flags of an effect, and writes nothing else. -/
structure Implements (op : Byte → State → Byte × State) (effect : Nat → Bool → Effect) : Prop where
  result : ∀ v s, (op v s).1.toNat = (effect v.toNat (s.flag .c)).result
  holds : ∀ v s, (effect v.toNat (s.flag .c)).holds s (op v s).2
  only : ∀ v s, FlagsOnly s (op v s).2
  keeps : ∀ v s g, g ∉ (effect v.toNat (s.flag .c)).flags → (op v s).2.flag g = s.flag g

section Effects
variable {s t u : State}

/-- N and Z of the new byte, and the other flags one by one. -/
theorem effectNZ_holds {r : Byte} {n : Nat} {sets : List (Flag × Bool)} {opens kept : List Flag} (hr : r.toNat = n)
    (hn : u.flag .n = isNeg r) (hz : u.flag .z = isZero r) (hsets : ∀ p ∈ sets, u.flag p.1 = p.2)
    (hkept : ∀ g ∈ kept, s.policies.flags = .motorola → u.flag g = s.flag g) :
    (effectNZ n sets opens kept).holds s u := by
  refine ⟨fun p hp => ?_, hkept⟩
  rcases List.mem_cons.1 hp with rfl | hp
  · rw [hn, isNeg_byte, hr]
  rcases List.mem_cons.1 hp with rfl | hp
  · rw [hz, isZero_iff, hr]
  exact hsets p hp

end Effects

theorem negate_implements : Implements negate negEffect where
  result v s := sub8_zero_r v
  holds v s := effectNZ_holds (sub8_zero_r v) (by simp [negate, sub8_n]) (by simp [negate, sub8_z])
    (by simp [negate, sub8_zero_v, sub8_zero_c]) (by simp)
  only := negate_only
  keeps v s g hg := negate_keeps v s g (by simp_all [negEffect, effectNZ, Effect.flags])

theorem complement_implements : Implements complement comEffect where
  result v s := xor_ones_toNat v
  holds v s := effectNZ_holds (xor_ones_toNat v) (by simp [complement]) (by simp [complement]) (by simp [complement])
    (by simp)
  only := complement_only
  keeps v s g hg := complement_keeps v s g (by simp_all [comEffect, effectNZ, Effect.flags])

theorem increment_implements : Implements increment incEffect where
  result v s := by simp [increment, incEffect, effectNZ]
  holds v s := effectNZ_holds (r := v + 1#8) (by simp) (by simp [increment]) (by simp [increment])
    (by simp [increment, byte_beq v (n := 127)]) (by simp)
  only := increment_only
  keeps v s g hg := increment_keeps v s g (by simp_all [incEffect, effectNZ, Effect.flags])

theorem decrement_implements : Implements decrement decEffect where
  result v s := by simp [decrement, decEffect, effectNZ]; omega
  holds v s := effectNZ_holds (r := v - 1#8) (by simp; omega) (by simp [decrement]) (by simp [decrement])
    (by simp [decrement, byte_beq v (n := 128)]) (by simp)
  only := decrement_only
  keeps v s g hg := decrement_keeps v s g (by simp_all [decEffect, effectNZ, Effect.flags])

theorem shiftLeft_implements : Implements shiftLeft aslEffect where
  result v s := shiftLeft_toNat v
  holds v s := effectNZ_holds (shiftLeft_toNat v) (by simp [shiftLeft]) (by simp [shiftLeft])
    (by simp [shiftLeft, getElem_seven_xor_six, ← getElem_seven]) (by simp)
  only := shiftLeft_only
  keeps v s g hg := shiftLeft_keeps v s g (by simp_all [aslEffect, effectNZ, Effect.flags])

theorem shiftRightArith_implements : Implements shiftRightArith asrEffect where
  result v s := shiftRight_or_sign_toNat v
  holds v s := effectNZ_holds (shiftRight_or_sign_toNat v) (by simp [shiftRightArith]) (by simp [shiftRightArith])
    (by simp [shiftRightArith, getElem_zero])
    (by simp +contextual [shiftRightArith, Config.FlagPolicy.draws, Config.OpenFlag.unchangedByMotorola])
  only := shiftRightArith_only
  keeps v s g hg := shiftRightArith_keeps v s g (by simp_all [asrEffect, effectNZ, Effect.flags])

theorem shiftRight_implements : Implements shiftRight lsrEffect where
  result v s := shiftRight_toNat v
  holds v s := effectNZ_holds (shiftRight_toNat v) (by simp [shiftRight, isNeg_byte]; omega)
    (by simp [shiftRight]) (by simp [shiftRight, getElem_zero])
    (by simp +contextual [shiftRight, Config.FlagPolicy.draws, Config.OpenFlag.unchangedByMotorola])
  only := shiftRight_only
  keeps v s g hg := shiftRight_keeps v s g (by simp_all [lsrEffect, effectNZ, Effect.flags])

theorem rotateLeft_implements : Implements rotateLeft rolEffect where
  result v s := shiftLeft_or_carry_toNat v (s.flag .c)
  holds v s := effectNZ_holds (shiftLeft_or_carry_toNat v (s.flag .c)) (by simp [rotateLeft]) (by simp [rotateLeft])
    (by simp [rotateLeft, getElem_seven_xor_six, ← getElem_seven]) (by simp)
  only := rotateLeft_only
  keeps v s g hg := rotateLeft_keeps v s g (by simp_all [rolEffect, effectNZ, Effect.flags])

theorem rotateRight_implements : Implements rotateRight rorEffect where
  result v s := shiftRight_or_carry_toNat v (s.flag .c)
  holds v s := effectNZ_holds (shiftRight_or_carry_toNat v (s.flag .c)) (by simp [rotateRight])
    (by simp [rotateRight]) (by simp [rotateRight, getElem_zero])
    (by simp +contextual [rotateRight, Config.FlagPolicy.draws, Config.OpenFlag.unchangedByMotorola])
  only := rotateRight_only
  keeps v s g hg := rotateRight_keeps v s g (by simp_all [rorEffect, effectNZ, Effect.flags])

/-- Every row's three forms run one operation, which has the row's effect. -/
theorem unaryRow_implements {row : UnaryRow} (hrow : row ∈ unaryRows) : ∃ op, Implements op row.effect ∧
    (∀ m s, exec (row.mem m) s = modifyMem m op s) ∧
    (∀ s, exec row.accA s = modifyReg .a op s) ∧ ∀ s, exec row.accB s = modifyReg .b op s := by
  simp only [unaryRows, List.mem_cons, List.not_mem_nil, or_false] at hrow
  rcases hrow with rfl | rfl | rfl | rfl | rfl | rfl | rfl | rfl | rfl | rfl
  · exact ⟨_, negate_implements, fun _ _ => rfl, fun _ => rfl, fun _ => rfl⟩
  · exact ⟨_, complement_implements, fun _ _ => rfl, fun _ => rfl, fun _ => rfl⟩
  · exact ⟨_, increment_implements, fun _ _ => rfl, fun _ => rfl, fun _ => rfl⟩
  · exact ⟨_, decrement_implements, fun _ _ => rfl, fun _ => rfl, fun _ => rfl⟩
  · exact ⟨_, shiftLeft_implements, fun _ _ => rfl, fun _ => rfl, fun _ => rfl⟩
  · exact ⟨_, shiftLeft_implements, fun _ _ => rfl, fun _ => rfl, fun _ => rfl⟩
  · exact ⟨_, shiftRightArith_implements, fun _ _ => rfl, fun _ => rfl, fun _ => rfl⟩
  · exact ⟨_, shiftRight_implements, fun _ _ => rfl, fun _ => rfl, fun _ => rfl⟩
  · exact ⟨_, rotateLeft_implements, fun _ _ => rfl, fun _ => rfl, fun _ => rfl⟩
  · exact ⟨_, rotateRight_implements, fun _ _ => rfl, fun _ => rfl, fun _ => rfl⟩

/-! ## On a byte of memory (R66) -/

section ModifyMem
variable {i : Instr} {m : Mem} {s t w : State} {ea : Word} {v : Byte} {op : Byte → State → Byte × State}
  {effect : Nat → Bool → Effect}

theorem modifyMem_of_read (haddr : effectiveAddress m s = .next (ea, t))
    (hread : read8 .other ea t = .next (v, w)) :
    modifyMem m op s = write8 .other ea (op v w).1 (op v w).2 := by
  simp [modifyMem, haddr, hread]

/-- An operation after an address was computed and a byte read: the effect is that of the flags and policies before. -/
theorem Implements.after_addressed {upd : List RegName} (hop : Implements op effect) (h : Addressed upd s w)
    (v : Byte) :
    (op v w).1 = BitVec.ofNat 8 (effect v.toNat (s.flag .c)).result ∧
      ChangesOnly [] (effect v.toNat (s.flag .c)).flags [] w (op v w).2 ∧
      (effect v.toNat (s.flag .c)).holds s (op v w).2 := by
  obtain ⟨hsets, hkept⟩ := hop.holds v w
  have hresult := hop.result v w
  have hframe := (hop.only v w).changes [] [] (hop.keeps v w)
  rw [h.flag] at hsets hkept hresult hframe
  refine ⟨by rw [← hresult, BitVec.ofNat_toNat, BitVec.setWidth_eq], hframe, hsets, fun g hg hmot => ?_⟩
  rw [hkept g hg (h.policies ▸ hmot), h.flag]

theorem modifyMem_ram (hop : Implements op effect) (hi : exec i s = modifyMem m op s)
    (haddr : effectiveAddress m s = .next (ea, t)) (hv : t.Reads ea v) (hea : t.Writes ea) :
    Completes i s t false (updatesMem m) [] (effect v.toNat (s.flag .c)).flags [ea] fun u =>
      u.byteAt ea = some (BitVec.ofNat 8 (effect v.toNat (s.flag .c)).result) ∧
        (effect v.toNat (s.flag .c)).holds s u := by
  have ha := effectiveAddress_state haddr
  obtain ⟨hresult, hframe, hholds⟩ := hop.after_addressed ha v
  have hea' : (op v t).2.kind ea = .ram := (State.kind_congr (hop.only v t).memMap ea).trans hea
  have hexec : exec i s = .next ((op v t).2.poke ea (op v t).1) := by
    rw [hi, modifyMem_of_read haddr (read8_of_reads .other hv), write8_of_ram .other _ hea']
  exact completesWith_of_addressed ha hexec (hframe.andPoke ea _) (hop.only v t).deviceLog
    ⟨by rw [State.byteAt_poke_same, hresult], hholds⟩

theorem modifyMem_device {d : Config.Device} (hop : Implements op effect) (hi : exec i s = modifyMem m op s)
    (haddr : effectiveAddress m s = .next (ea, t)) (hd : Serves t .other ea d)
    (hread : read8 .other ea t = .next (v, t.toDevice d ea none)) :
    CompletesWith
      (⟨d, ea, some (BitVec.ofNat 8 (effect v.toNat (s.flag .c)).result)⟩ :: ⟨d, ea, none⟩ :: t.deviceLog)
      i s t false (updatesMem m) [] (effect v.toNat (s.flag .c)).flags [] fun u =>
        (effect v.toNat (s.flag .c)).holds s u := by
  have ha := effectiveAddress_state haddr
  let w := t.toDevice d ea none
  obtain ⟨hresult, hframe, hholds⟩ := hop.after_addressed (ha.withLog w.deviceLog) v
  have hd' : Serves (op v w).2 .other ea d := ⟨(State.kind_congr (hop.only v w).memMap ea).trans hd.1, hd.2⟩
  have hexec : exec i s = .next ((op v w).2.toDevice d ea (some (op v w).1)) := by
    rw [hi, modifyMem_of_read haddr hread, write8_of_serves _ hd']
  have hreached : ChangesOnly [] _ [] t ((op v w).2.toDevice d ea (some (op v w).1)) :=
    (((ChangesOnly.refl [] [] [] t).andReach d ea none).trans hframe).andReach d ea _
  refine completesWith_of_addressed ha hexec hreached ?_ hholds
  rw [State.toDevice_deviceLog, (hop.only v w).deviceLog]
  exact congrArg (fun b => (⟨d, ea, some b⟩ : Config.DeviceAccess) :: w.deviceLog) hresult

end ModifyMem

/-- Settles O43: every row runs an operation with its effect on the byte at the address. -/
theorem memoryShiftsAndUnaries : Obligations.MemoryShiftsAndUnaries := by
  intro row hrow m s t ea haddr
  obtain ⟨op, hop, hmem, -⟩ := unaryRow_implements hrow
  exact ⟨fun v hv hea => modifyMem_ram hop (hmem m s) haddr hv hea,
    fun d v hd hread => modifyMem_device hop (hmem m s) haddr hd hread⟩

end Sys2Proof.Machine

/-! # Stacks (R77, R314 to R318) -/

namespace Sys2Proof.Machine

open Sys2Proof.Claims

/-! ## What a postbyte selects, item by item -/

/-- The bytes of an item from the stack pointer upward, the registers being those of `v` (R77). -/
def itemBytes (r : StackReg) (v : State) : StackItem → List Byte
  | .cc => [v.cc]
  | .a => [v.a]
  | .b => [v.b]
  | .dp => [v.dp]
  | .x => [hi8 v.x, lo8 v.x]
  | .y => [hi8 v.y, lo8 v.y]
  | .other => [hi8 (v.sp r.other), lo8 (v.sp r.other)]
  | .pc => [hi8 v.pc, lo8 v.pc]

/-- The register an item is; CC is its flags. -/
def itemNames (r : StackReg) : StackItem → List RegName
  | .cc => []
  | .a => [.a]
  | .b => [.b]
  | .dp => [.dp]
  | .x => [.x]
  | .y => [.y]
  | .other => [r.other.name]
  | .pc => [.pc]

/-- What the items of a list that the postbyte selects give, one after the other. -/
def ofSelected {α : Type} (mask : Byte) (f : StackItem → List α) (items : List StackItem) : List α :=
  items.flatMap fun it => if mask.getLsbD it.bit then f it else []

section Selection
variable {α : Type} {mask : Byte} {f : StackItem → List α} {it : StackItem}

theorem ofSelected_cons_of_mem (h : mask.getLsbD it.bit = true) (rest : List StackItem) :
    ofSelected mask f (it :: rest) = f it ++ ofSelected mask f rest := by
  simp [ofSelected, h]

theorem ofSelected_cons_of_not_mem (h : ¬mask.getLsbD it.bit = true) (rest : List StackItem) :
    ofSelected mask f (it :: rest) = ofSelected mask f rest := by
  simp [ofSelected, h]

theorem ofSelected_length_le (mask : Byte) (f : StackItem → List α) (items : List StackItem) :
    (ofSelected mask f items).length ≤ (items.flatMap f).length := by
  induction items with
  | nil => exact le_rfl
  | cons it rest ih =>
    rw [List.flatMap_cons, List.length_append]
    by_cases h : mask.getLsbD it.bit = true
    · rw [ofSelected_cons_of_mem h, List.length_append]
      omega
    · rw [ofSelected_cons_of_not_mem h]
      omega

/-- In the push order an item lies above those that follow it. -/
theorem ofSelected_reverse_cons_of_mem (h : mask.getLsbD it.bit = true) (rest : List StackItem) :
    ofSelected mask f (it :: rest).reverse = ofSelected mask f rest.reverse ++ f it := by
  simp [ofSelected, h]

theorem ofSelected_reverse_cons_of_not_mem (h : ¬mask.getLsbD it.bit = true) (rest : List StackItem) :
    ofSelected mask f (it :: rest).reverse = ofSelected mask f rest.reverse := by
  simp [ofSelected, h]

end Selection

theorem stackBytes_eq (r : StackReg) (mask : Byte) (v : State) :
    stackBytes r mask v = ofSelected mask (itemBytes r v) pullOrder := by
  cases r <;> simp [stackBytes, ofSelected, pullOrder, itemBytes, StackItem.bit, State.sp, StackReg.other]

theorem selected_eq (r : StackReg) (mask : Byte) :
    selected r mask = ofSelected mask (itemNames r) pullOrder := by
  cases r <;> simp [selected, ofSelected, pullOrder, itemNames, StackItem.bit, StackReg.other, StackReg.name]

/-- A frame has twelve bytes at most. -/
theorem stackBytes_length_le (r : StackReg) (mask : Byte) (v : State) : (stackBytes r mask v).length ≤ 12 := by
  rw [stackBytes_eq]
  exact ofSelected_length_le mask (itemBytes r v) pullOrder

/-! ## Addresses below and above a stack pointer, modulo 65536 -/

theorem mem_addresses {q p : Word} {n : Nat} : q ∈ addresses p n ↔ ∃ k < n, q = p + BitVec.ofNat 16 k := by
  simp [addresses, eq_comm (a := q)]

theorem sub_ofNat_add (p : Word) (m n : Nat) :
    p - BitVec.ofNat 16 (m + n) = p - BitVec.ofNat 16 m - BitVec.ofNat 16 n := by
  rw [BitVec.ofNat_add]
  ring

theorem sub_ofNat_add_ofNat (p : Word) {k n : Nat} (h : n ≤ k) :
    p - BitVec.ofNat 16 n + BitVec.ofNat 16 k = p + BitVec.ofNat 16 (k - n) := by
  conv_lhs => rw [← Nat.sub_add_cancel h, BitVec.ofNat_add]
  ring

/-- The `n` bytes below a stack pointer can be written. -/
def Room (r : StackReg) (n : Nat) (s : State) : Prop :=
  ∀ k, 1 ≤ k → k ≤ n → s.Writes (s.sp r - BitVec.ofNat 16 k)

theorem room_of_takes {r : StackReg} {n : Nat} {s : State} (h : Takes s (s.sp r - BitVec.ofNat 16 n) n) :
    Room r n s := by
  intro k hk hkn
  have hw := h (n - k) (by omega)
  rwa [← Nat.sub_add_cancel hkn, Nat.add_comm, sub_ofNat_add, Nat.add_sub_cancel_left, sub_add_cancel] at hw

/-- Moving a stack pointer changes that register alone. -/
theorem setSp_reg {r : StackReg} {s : State} {n : RegName} (hn : n ≠ r.name) (p : Word) :
    (s.setSp r p).reg n = s.reg n := by
  cases r <;> cases n <;> simp_all [State.reg, State.setSp, StackReg.name]

/-! ## Pushing -/

/-- From `s` to `t` the bytes `bs` were pushed on stack `r`: they lie from the new stack pointer upward, and nothing
else has changed. -/
structure Stacked (r : StackReg) (bs : List Byte) (s t : State) : Prop where
  shape : ∃ m, t = { s with mem := m }.setSp r (s.sp r - BitVec.ofNat 16 bs.length)
  stored : Stored t (t.sp r) bs
  outside : ∀ q, q ∉ addresses (t.sp r) bs.length → t.byteAt q = s.byteAt q

section Pushing
variable {r : StackReg} {s t u : State} {bs cs : List Byte}

theorem Stacked.sp_eq (h : Stacked r bs s t) : t.sp r = s.sp r - BitVec.ofNat 16 bs.length := by
  obtain ⟨m, rfl⟩ := h.shape
  exact State.sp_setSp _ _ _

theorem Stacked.memMap (h : Stacked r bs s t) : t.memMap = s.memMap := by
  obtain ⟨m, rfl⟩ := h.shape
  simp

/-- No register that the stack's items name has changed. -/
theorem Stacked.itemBytes (h : Stacked r bs s t) : itemBytes r t = itemBytes r s := by
  obtain ⟨m, rfl⟩ := h.shape
  funext it
  cases r <;> cases it <;> rfl

theorem Stacked.changes (h : Stacked r bs s t) :
    ChangesOnly [r.name] [] (addresses (t.sp r) bs.length) s t := by
  have hbytes := h.outside
  obtain ⟨m, rfl⟩ := h.shape
  refine ⟨fun n hn => ?_, fun g _ => ?_, hbytes, ?_, ?_, ?_, ?_, ?_, ?_⟩
  · rw [setSp_reg (by simpa using hn)]
    cases n <;> rfl
  · exact State.flag_congr (by simp) g
  all_goals simp

theorem Stacked.deviceLog (h : Stacked r bs s t) : t.deviceLog = s.deviceLog := by
  obtain ⟨m, rfl⟩ := h.shape
  simp

theorem Stacked.nil (r : StackReg) (s : State) : Stacked r [] s s where
  shape := ⟨s.mem, by cases r <;> simp [State.setSp, State.sp]⟩
  stored := nofun
  outside _ _ := rfl

/-- A second block goes below the first, and does not reach round to it. -/
theorem Stacked.append (h1 : Stacked r bs s t) (h2 : Stacked r cs t u) (hlen : cs.length + bs.length ≤ 65536) :
    Stacked r (cs ++ bs) s u := by
  have hsp := h2.sp_eq
  have above (k : Nat) (hk : cs.length ≤ k) :
      u.sp r + BitVec.ofNat 16 k = t.sp r + BitVec.ofNat 16 (k - cs.length) := by
    rw [hsp, sub_ofNat_add_ofNat _ hk]
  refine ⟨?shape, fun k v hk => ?stored, fun q hq => ?outside⟩
  case shape =>
    obtain ⟨m1, rfl⟩ := h1.shape
    obtain ⟨m2, rfl⟩ := h2.shape
    refine ⟨m2, ?_⟩
    rw [State.sp_setSp, ← sub_ofNat_add, List.length_append, Nat.add_comm]
    cases r <;> rfl
  case stored =>
    rcases lt_or_ge k cs.length with hlt | hge
    · exact h2.stored k v (by rwa [List.getElem?_append_left hlt] at hk)
    · rw [List.getElem?_append_right hge] at hk
      have hlt : k - cs.length < bs.length := (List.getElem?_eq_some_iff.1 hk).1
      rw [h2.outside, above k hge]
      · exact h1.stored _ v hk
      · rw [mem_addresses]
        rintro ⟨j, hj, he⟩
        have := congrArg BitVec.toNat (BitVec.add_right_inj _ |>.1 he)
        simp only [BitVec.toNat_ofNat] at this
        omega
  case outside =>
    rw [mem_addresses, List.length_append] at hq
    rw [h2.outside, h1.outside]
    · rw [mem_addresses]
      rintro ⟨j, hj, rfl⟩
      exact hq ⟨j + cs.length, by omega, by rw [above _ (by omega), Nat.add_sub_cancel]⟩
    · rw [mem_addresses]
      rintro ⟨j, hj, rfl⟩
      exact hq ⟨j, by omega, rfl⟩

theorem Room.mono {n k : Nat} (h : Room r n s) (hk : k ≤ n) : Room r k s :=
  fun j hj hjk => h j hj (hjk.trans hk)

/-- The room that is left below a block pushed. -/
theorem Room.after {n : Nat} (h : Room r (bs.length + n) s) (hst : Stacked r bs s t) : Room r n t := by
  intro k hk hkn
  rw [hst.sp_eq, ← sub_ofNat_add, State.Writes, State.kind_congr hst.memMap]
  exact h (bs.length + k) (by omega) (by omega)

theorem push8_stacked (v : Byte) (h : Room r 1 s) : ∃ t, push8 r v s = .next t ∧ Stacked r [v] s t := by
  refine ⟨_, push8_of_ram v (h 1 le_rfl le_rfl), ⟨_, (State.setSp_poke s r _ _ v).symm⟩,
    fun k w hk => ?_, fun q hq => ?_⟩
  · cases k with
    | zero =>
      cases hk
      simp
    | succ k => simp at hk
  · rw [mem_addresses] at hq
    rw [State.byteAt_poke, if_neg, State.byteAt_setSp]
    rintro rfl
    exact hq ⟨0, by simp, by simp⟩

theorem push16_stacked (v : Word) (h : Room r 2 s) :
    ∃ t, push16 r v s = .next t ∧ Stacked r [hi8 v, lo8 v] s t := by
  obtain ⟨t, hlo, hst⟩ := push8_stacked (lo8 v) (h.mono (by omega))
  obtain ⟨u, hhi, hst'⟩ := push8_stacked (hi8 v) (Room.after (n := 1) h hst)
  exact ⟨u, by rw [push16, hlo, Result.andThen_next, hhi], hst.append hst' (by simp)⟩

theorem pushItem_stacked (it : StackItem) (h : Room r (itemBytes r s it).length s) :
    ∃ t, pushItem r it s = .next t ∧ Stacked r (itemBytes r s it) s t := by
  cases it with
  | cc | a | b | dp => exact push8_stacked _ h
  | x | y | other | pc => exact push16_stacked _ h

/-- A push lays its items out below the stack pointer, the last one lowest (R318). -/
theorem pushItems_stacked {mask : Byte} {items : List StackItem}
    (h : Room r (ofSelected mask (itemBytes r s) items.reverse).length s)
    (hlen : (ofSelected mask (itemBytes r s) items.reverse).length ≤ 65536) :
    ∃ t, pushItems r mask items s = .next t ∧
      Stacked r (ofSelected mask (itemBytes r s) items.reverse) s t := by
  induction items generalizing s with
  | nil => exact ⟨s, rfl, .nil r s⟩
  | cons it rest ih =>
    rw [pushItems]
    split
    next hit =>
      rw [ofSelected_reverse_cons_of_mem hit] at h hlen ⊢
      rw [List.length_append] at h hlen
      obtain ⟨t, hpush, hst⟩ := pushItem_stacked it (h.mono (by omega))
      rw [Nat.add_comm] at h
      have hroom := h.after hst
      rw [← hst.itemBytes] at hroom
      obtain ⟨u, hrest, hst'⟩ := ih hroom (by rw [hst.itemBytes]; omega)
      rw [hst.itemBytes] at hst'
      exact ⟨u, by rw [hpush, Result.andThen_next, hrest], hst.append hst' hlen⟩
    next hit =>
      rw [ofSelected_reverse_cons_of_not_mem hit] at h hlen ⊢
      exact ih h hlen

theorem pushRegs_stacked {mask : Byte}
    (h : Takes s (s.sp r - BitVec.ofNat 16 (stackBytes r mask s).length) (stackBytes r mask s).length) :
    ∃ t, pushRegs r mask s = .next t ∧ Stacked r (stackBytes r mask s) s t := by
  have hroom := room_of_takes h
  have hlen := stackBytes_length_le r mask s
  rw [stackBytes_eq] at hroom hlen ⊢
  exact pushItems_stacked (items := pushOrder) hroom (hlen.trans (by decide))

end Pushing

/-- Settles O51: a push is `Stacked` with the bytes of its postbyte. -/
theorem pushLaysOutRegisters : Obligations.PushLaysOutRegisters := by
  intro r mask s bs sp htakes
  obtain ⟨t, hpush, hst⟩ := pushRegs_stacked htakes
  have hexec : exec (psh r mask) s = pushRegs r mask s := by cases r <;> rfl
  have hsp : t.sp r = sp := hst.sp_eq
  exact ⟨t, hexec.trans hpush, hsp, hsp ▸ hst.stored, hsp ▸ hst.changes, hst.deviceLog⟩

end Sys2Proof.Machine

/-! # Pulls (R77, R316 to R318) -/

namespace Sys2Proof.Machine

open Sys2Proof.Claims

/-- A state with the register that an item is taken from `v`. -/
def loadItem (r : StackReg) (v : State) (it : StackItem) (s : State) : State :=
  match it with
  | .cc => { s with cc := v.cc }
  | .a => { s with a := v.a }
  | .b => { s with b := v.b }
  | .dp => { s with dp := v.dp }
  | .x => { s with x := v.x }
  | .y => { s with y := v.y }
  | .other => s.setSp r.other (v.sp r.other)
  | .pc => { s with pc := v.pc }

/-- A state with the registers of a list that the postbyte selects taken from `v`. -/
def loadItems (r : StackReg) (mask : Byte) (v : State) (items : List StackItem) (s : State) : State :=
  match items with
  | [] => s
  | it :: rest => loadItems r mask v rest (if mask.getLsbD it.bit then loadItem r v it s else s)

section Loading
variable {r : StackReg} {mask : Byte} {v s : State} {items : List StackItem}

theorem loadItem_setSp (it : StackItem) (p : Word) :
    loadItem r v it (s.setSp r p) = (loadItem r v it s).setSp r p := by
  cases r <;> cases it <;> rfl

theorem loadItems_setSp (p : Word) :
    loadItems r mask v items (s.setSp r p) = (loadItems r mask v items s).setSp r p := by
  induction items generalizing s with
  | nil => rfl
  | cons it rest ih =>
    rw [loadItems, loadItems, ← ih]
    split
    · rw [loadItem_setSp]
    · rfl

theorem loadItem_reg (it : StackItem) (n : RegName) :
    (loadItem r v it s).reg n = if n ∈ itemNames r it then v.reg n else s.reg n := by
  cases r <;> cases it <;> cases n <;> rfl

/-- The registers after a pull: those that the postbyte selects are loaded. -/
theorem loadItems_reg (n : RegName) : (loadItems r mask v items s).reg n =
    if n ∈ ofSelected mask (itemNames r) items then v.reg n else s.reg n := by
  induction items generalizing s with
  | nil => simp [loadItems, ofSelected]
  | cons it rest ih =>
    rw [loadItems, ih]
    by_cases hit : mask.getLsbD it.bit = true
    · rw [if_pos hit, loadItem_reg, ofSelected_cons_of_mem hit]
      by_cases hrest : n ∈ ofSelected mask (itemNames r) rest <;> simp [hrest]
    · rw [if_neg hit, ofSelected_cons_of_not_mem hit]

theorem loadItem_cc {it : StackItem} (h : it ≠ .cc) : (loadItem r v it s).cc = s.cc := by
  cases it with
  | cc => exact absurd rfl h
  | other => exact State.setSp_cc _ _ _
  | _ => rfl

theorem loadItems_cc_of_not_mem (h : .cc ∉ items) : (loadItems r mask v items s).cc = s.cc := by
  induction items generalizing s with
  | nil => rfl
  | cons it rest ih =>
    rw [List.mem_cons, not_or] at h
    rw [loadItems, ih h.2]
    split
    · exact loadItem_cc (Ne.symm h.1)
    · rfl

/-- CC is pulled first, with bit 0 (R318). -/
theorem loadItems_cc : (loadItems r mask v pullOrder s).cc = if mask.getLsbD 0 then v.cc else s.cc := by
  rw [pullOrder, loadItems, loadItems_cc_of_not_mem (by decide)]
  show (if mask.getLsbD 0 then _ else _ : State).cc = _
  split <;> rfl

theorem loadItems_deviceLog : (loadItems r mask v items s).deviceLog = s.deviceLog := by
  have one (it : StackItem) (x : State) : (loadItem r v it x).deviceLog = x.deviceLog := by
    cases it with
    | other => exact State.setSp_deviceLog _ _ _
    | _ => rfl
  induction items generalizing s with
  | nil => rfl
  | cons it rest ih =>
    rw [loadItems, ih]
    split
    · exact one it s
    · rfl

end Loading

/-! ## Blocks of bytes that can be read -/

section Blocks
variable {s t : State} {p : Word} {bs cs : List Byte}

theorem holds_congr (h : Holds s p bs) (hm : t.mem = s.mem) (hk : t.memMap = s.memMap) : Holds t p bs :=
  fun k v hv => (h k v hv).congr hm hk

theorem holds_left (h : Holds s p (bs ++ cs)) : Holds s p bs :=
  fun k v hk => h k v (by rw [List.getElem?_append_left (List.getElem?_eq_some_iff.1 hk).1, hk])

theorem holds_right (h : Holds s p (bs ++ cs)) : Holds s (p + BitVec.ofNat 16 bs.length) cs := by
  intro k v hk
  rw [BitVec.add_assoc, ← BitVec.ofNat_add]
  exact h (bs.length + k) v (by rw [List.getElem?_append_right (Nat.le_add_right _ _), Nat.add_sub_cancel_left, hk])

theorem reads_of_holds {b : Byte} (h : Holds s p (b :: bs)) : s.Reads p b := (holds_cons.1 h).1

theorem reads16_of_holds {hi lo : Byte} (h : Holds s p [hi, lo]) : s.Reads16 p hi lo :=
  ⟨(holds_cons.1 h).1, (holds_cons.1 (holds_cons.1 h).2).1⟩

end Blocks

/-! ## Pulling -/

section Pulling
variable {r : StackReg} {mask : Byte} {v s : State} {items : List StackItem}

theorem pullItem_of_holds (it : StackItem) (h : Holds s (s.sp r) (itemBytes r v it)) :
    pullItem r it s =
      .next ((loadItem r v it s).setSp r (s.sp r + BitVec.ofNat 16 (itemBytes r v it).length)) := by
  cases it with
  | cc | a | b | dp =>
    rw [pullItem, pull8_of_reads (reads_of_holds h)]
    cases r <;> rfl
  | x | y | other | pc =>
    rw [pullItem, pull16_of_reads (reads16_of_holds h), Result.andThen_next, be16_hi8_lo8]
    cases r <;> rfl

theorem pullItems_of_holds (h : Holds s (s.sp r) (ofSelected mask (itemBytes r v) items)) :
    pullItems r mask items s =
      .next ((loadItems r mask v items s).setSp r
        (s.sp r + BitVec.ofNat 16 (ofSelected mask (itemBytes r v) items).length)) := by
  induction items generalizing s with
  | nil => simp [pullItems, loadItems, ofSelected]
  | cons it rest ih =>
    rw [pullItems, loadItems]
    split
    next hit =>
      rw [ofSelected_cons_of_mem hit] at h ⊢
      have hitem := pullItem_of_holds it (holds_left h)
      have hmem := Pulled.pullItem hitem
      rw [hitem, Result.andThen_next, ih]
      · rw [loadItems_setSp, State.setSp_setSp, State.sp_setSp, List.length_append, BitVec.ofNat_add, BitVec.add_assoc]
      · rw [State.sp_setSp]
        exact holds_congr (holds_right h) hmem.mem hmem.map
    next hit =>
      rw [ofSelected_cons_of_not_mem hit] at h ⊢
      exact ih h

/-- A pull loads the registers that the postbyte selects, and moves its stack pointer past them. -/
theorem pullRegs_of_holds (h : Holds s (s.sp r) (stackBytes r mask v)) :
    pullRegs r mask s =
      .next ((loadItems r mask v pullOrder s).setSp r
        (s.sp r + BitVec.ofNat 16 (stackBytes r mask v).length)) := by
  rw [stackBytes_eq] at h ⊢
  exact pullItems_of_holds h

end Pulling

/-! ## A pull after a push -/

section PullAfterPush
variable {r : StackReg} {mask : Byte} {s t : State} {bs : List Byte}

/-- Loading the registers a state had before a push changes nothing: the push has kept them. -/
theorem loadItem_of_stacked (h : Stacked r bs s t) (it : StackItem) : loadItem r s it t = t := by
  obtain ⟨m, rfl⟩ := h.shape
  cases r <;> cases it <;> rfl

theorem loadItems_of_stacked (h : Stacked r bs s t) (items : List StackItem) : loadItems r mask s items t = t := by
  induction items with
  | nil => rfl
  | cons it rest ih => rw [loadItems, loadItem_of_stacked h, ite_self, ih]

/-- The stack pointer put back, only memory differs. -/
theorem Stacked.setSp_eq (h : Stacked r bs s t) : t.setSp r (s.sp r) = { s with mem := t.mem } := by
  obtain ⟨m, rfl⟩ := h.shape
  cases r <;> rfl

/-- What was pushed into RAM can be read. -/
theorem Stacked.holds (h : Stacked r bs s t) (htakes : Takes s (t.sp r) bs.length) : Holds t (t.sp r) bs := by
  intro k v hk
  have hlt : k < bs.length := (List.getElem?_eq_some_iff.1 hk).1
  exact ⟨.inl ((State.kind_congr h.memMap _).trans (htakes k hlt)), h.stored k v hk⟩

end PullAfterPush

/-- Settles O9: the pull reads the bytes that the push has stored, and they are the registers' own. -/
theorem pullUndoesPush : Obligations.PullUndoesPush := by
  intro r mask s n sp htakes
  obtain ⟨t, hpush, hst⟩ := pushRegs_stacked htakes
  have hsp : t.sp r = sp := hst.sp_eq
  have hholds : Holds t (t.sp r) (stackBytes r mask s) := hst.holds (hsp ▸ htakes)
  refine ⟨t, hpush, ?_, hsp ▸ hst.outside⟩
  have hback : t.sp r + BitVec.ofNat 16 (stackBytes r mask s).length = s.sp r := by
    rw [hsp]
    exact sub_add_cancel _ _
  rw [pullRegs_of_holds hholds, loadItems_of_stacked hst, hback, hst.setSp_eq]

/-! ## PULS and PULU -/

section PullInstructions
variable {r : StackReg} {mask : Byte} {s t u v : State}

/-- PULU arms NMI if bit 6 is set and the policy has it so; PULS never does (R404). -/
theorem exec_pul (h : pullRegs r mask s = .next t) :
    exec (pul r mask) s = .next (armedIf (decide (r = .u) && mask.getLsbD 6 && s.policies.nmiArm.pulu) t) := by
  have hpol : t.policies = s.policies := (Pulled.pullRegs h).policies
  cases r with
  | s => exact h
  | u =>
    show execPulu mask s = _
    rw [execPulu, h, Result.andThen_next, ← hpol]
    show Host.Outcome.next (if mask.getLsbD 6 then t.armNmi (·.pulu) else t) = _
    cases mask.getLsbD 6 <;> cases hp : t.policies.nmiArm.pulu <;> simp [armedIf, State.armNmi, hp]

/-- Arming NMI on both sides keeps a frame. -/
theorem ChangesOnly.armedIf {regs : List RegName} {flags : List Flag} {bytes : List Word}
    (h : ChangesOnly regs flags bytes s t) (arm : Bool) :
    ChangesOnly regs flags bytes (armedIf arm s) (armedIf arm t) := by
  cases arm with
  | false => exact h
  | true => exact ⟨h.regs, h.flags, h.bytes, rfl, h.pending, h.runState, h.memMap, h.policies, h.inputs⟩

theorem armedIf_restored (arm : Bool) (h : Restored r mask v t) : Restored r mask v (armedIf arm t) := by
  cases arm <;> exact h

theorem armedIf_sp (arm : Bool) (s : State) (r : StackReg) : (armedIf arm s).sp r = s.sp r := by
  cases arm <;> rfl

theorem armedIf_deviceLog (arm : Bool) (s : State) : (armedIf arm s).deviceLog = s.deviceLog := by
  cases arm <;> rfl

/-- A pull does not load the pointer of its own stack. -/
theorem name_notMem_selected (r : StackReg) (mask : Byte) : r.name ∉ selected r mask := by
  cases r <;> simp [selected, StackReg.name]

/-- The registers after a pull, CC among them. -/
theorem loadItems_restored (r : StackReg) (mask : Byte) (v s : State) (p : Word) :
    Restored r mask v ((loadItems r mask v pullOrder s).setSp r p) := by
  refine ⟨fun hbit => ?_, fun n hn => ?_⟩
  · rw [State.setSp_cc, loadItems_cc, if_pos hbit]
  · have hne : n ≠ r.name := fun he => name_notMem_selected r mask (he ▸ hn)
    rw [setSp_reg hne, loadItems_reg, ← selected_eq, if_pos hn]

theorem loadItems_changes {p : Word} (h : pullRegs r mask s = .next ((loadItems r mask v pullOrder s).setSp r p)) :
    ChangesOnly (r.name :: selected r mask) (if mask.getLsbD 0 then allFlags else []) [] s
      ((loadItems r mask v pullOrder s).setSp r p) := by
  have hpulled := Pulled.pullRegs h
  refine ⟨fun n hn => ?_, fun g hg => ?_, fun q _ => State.byteAt_congr hpulled.mem q, hpulled.armed,
    hpulled.pending, hpulled.runState, hpulled.map, hpulled.policies, hpulled.inputs⟩
  · rw [List.mem_cons, not_or] at hn
    rw [setSp_reg hn.1, loadItems_reg, ← selected_eq, if_neg hn.2]
  · refine State.flag_congr ?_ g
    rw [State.setSp_cc, loadItems_cc, if_neg]
    intro hbit
    rw [if_pos hbit] at hg
    cases g <;> simp [allFlags] at hg

end PullInstructions

/-- Settles O52: a pull loads what its postbyte selects, and PULU may then arm NMI. -/
theorem pullLoadsRegisters : Obligations.PullLoadsRegisters := by
  intro r mask s v bs hholds
  have hpull := pullRegs_of_holds hholds
  refine ⟨_, exec_pul hpull, ?pointer, armedIf_restored _ (loadItems_restored r mask v s _),
    (loadItems_changes hpull).armedIf _, ?log⟩
  case pointer => rw [armedIf_sp, State.sp_setSp]
  case log => rw [armedIf_deviceLog, State.setSp_deviceLog, loadItems_deviceLog]

end Sys2Proof.Machine

/-! # The encoder and the decoder agree (R90, R110, R120) -/

namespace Sys2Proof

/-! ## The operands -/

/-- Going on after what was decoded. -/
theorem Decoded.andThen_of_ok {α β : Type} {d : Decoded α} {f : α → List Byte → Decoded β} {v : α} {rest : List Byte}
    (h : d = .ok v rest) : d.andThen f = f v rest := by
  rw [h]
  rfl

theorem decodeWord_hi8_lo8 (nn : Word) (rest : List Byte) : decodeWord (hi8 nn :: lo8 nn :: rest) = .ok nn rest := by
  simp [decodeWord]

theorem decodeIndexReg_code (r : IndexReg) : decodeIndexReg r.code = r := by cases r <;> rfl

theorem decodeRegCode_code (r : AnyReg) : decodeRegCode r.code = some r := by
  rcases r with r | r <;> cases r <;> rfl

theorem decodeRegPair_code (r1 r2 : AnyReg) (rest : List Byte) :
    decodeRegPair ((r1.code ++ r2.code : Byte) :: rest) = .ok (r1, r2) rest := by
  have hhigh : (r1.code ++ r2.code : Byte).extractLsb' 4 4 = r1.code := BitVec.extractLsb'_append_eq_left
  have hlow : (r1.code ++ r2.code : Byte).extractLsb' 0 4 = r2.code := BitVec.extractLsb'_append_eq_right
  simp only [decodeRegPair, hhigh, hlow, decodeRegCode_code]

/-- The fields of a postbyte whose bit 7 is 1 (R145). -/
theorem formPostbyte_fields : ∀ (rr : BitVec 2) (ind : Bool) (mmmm : BitVec 4),
    (formPostbyte rr ind mmmm).getLsbD 7 = true ∧ (formPostbyte rr ind mmmm).extractLsb' 5 2 = rr ∧
      (formPostbyte rr ind mmmm).getLsbD 4 = ind ∧ (formPostbyte rr ind mmmm).extractLsb' 0 4 = mmmm := by decide

/-- The fields of a postbyte whose bit 7 is 0 (R147). -/
theorem off5Postbyte_fields : ∀ (rr : BitVec 2) (n : BitVec 5),
    (0#1 ++ rr ++ n : Byte).getLsbD 7 = false ∧ (0#1 ++ rr ++ n : Byte).extractLsb' 5 2 = rr ∧
      (0#1 ++ rr ++ n : Byte).extractLsb' 0 5 = n := by decide

theorem decodeIndexed_formPostbyte (rr : BitVec 2) (ind : Bool) (mmmm : BitVec 4) (bs : List Byte) :
    decodeIndexed (formPostbyte rr ind mmmm :: bs) =
      decodeForm (formPostbyte rr ind mmmm) (decodeIndexReg rr) ind bs := by
  obtain ⟨hbit, hrr, hind, -⟩ := formPostbyte_fields rr ind mmmm
  simp only [decodeIndexed, hbit, hrr, hind, if_true]

theorem decodeForm_bytes {f : IndexForm} {ind : Bool} (r : IndexReg) (rest : List Byte)
    (h : (Indexed.form r f ind).wellFormed = true) :
    decodeForm (formPostbyte r.code ind f.code) r ind (f.offsetBytes ++ rest) = .ok (.form r f ind) rest := by
  obtain ⟨-, -, -, hcode⟩ := formPostbyte_fields r.code ind f.code
  rw [decodeForm, hcode]
  cases f with
  | postInc1 | preDec1 =>
    cases ind with
    | false => rfl
    | true => cases h
  | off16 nn => exact Decoded.andThen_of_ok (decodeWord_hi8_lo8 nn rest)
  | off8 n => rfl
  | postInc2 | preDec2 | zero | accB | accA | accD => rfl

/-- R145 to R161, for the operands that have a postbyte. -/
theorem decodeIndexed_bytes {p : Indexed} (h : p.wellFormed = true) (rest : List Byte) :
    decodeIndexed (p.bytes ++ rest) = .ok p rest := by
  cases p with
  | off5 r n =>
    obtain ⟨hbit, hrr, hn⟩ := off5Postbyte_fields r.code n
    rw [Indexed.bytes, List.singleton_append, decodeIndexed]
    simp only [hbit, hrr, hn, decodeIndexReg_code, Bool.false_eq_true, if_false]
  | form r f ind =>
    have hpost := decodeIndexed_formPostbyte r.code ind f.code (f.offsetBytes ++ rest)
    rw [decodeIndexReg_code] at hpost
    exact hpost.trans (decodeForm_bytes r rest h)
  | pcr8 n ind => cases ind <;> rfl
  | pcr16 nn ind =>
    have hword := Decoded.andThen_of_ok (f := fun nn rest => .ok (Indexed.pcr16 nn ind) rest)
      (decodeWord_hi8_lo8 nn rest)
    cases ind <;> exact hword
  | extInd nn =>
    exact Decoded.andThen_of_ok (f := fun nn rest => .ok (Indexed.extInd nn) rest) (decodeWord_hi8_lo8 nn rest)

/-! ## The rows of a page -/

section Rows
variable {page : Byte → Option Format} {op j d x e : Byte} {f : Format}

theorem decodePage_cons (h : page op = some f) (bs : List Byte) : decodePage page (op :: bs) = f.operands bs := by
  rw [decodePage, h]

/-- What is read from page 1 is what the decoder reads: the opcodes that lead to the other pages are not on it
(R91, R111). -/
theorem decode_of_page1 {bs rest : List Byte} {i : Instr} (h : decodePage page1 bs = .ok i rest) :
    decode bs = .ok i rest := by
  cases bs with
  | nil => cases h
  | cons op bs =>
    have h2 : op ≠ 0x10 := by rintro rfl; cases h
    have h3 : op ≠ 0x11 := by rintro rfl; cases h
    rw [decode_page1 h2 h3, h]

/-- A page lists the direct, indexed and extended opcodes of an instruction on a memory operand (R93, R94). -/
structure ListsMem (page : Byte → Option Format) (d x e : Byte) (k : Mem → Instr) : Prop where
  direct : page d = some (.direct k)
  indexed : page x = some (.indexed fun p => k (.indexed p))
  extended : page e = some (.extended k)

/-- A page lists the four opcodes of an instruction on an 8-bit source (R95). -/
structure ListsSrc8 (page : Byte → Option Format) (j d x e : Byte) (k : Src8 → Instr) : Prop where
  imm : page j = some (.immediate8 fun n => k (.imm n))
  mem : ListsMem page d x e fun m => k (.mem m)

/-- A page lists the four opcodes of an instruction on a 16-bit source (R95). -/
structure ListsSrc16 (page : Byte → Option Format) (j d x e : Byte) (k : Src16 → Instr) : Prop where
  imm : page j = some (.immediate16 fun nn => k (.imm nn))
  mem : ListsMem page d x e fun m => k (.mem m)

/-- The formats whose operand is a word (R100, R102, R105). -/
theorem decodePage_word {k : Word → Instr} (h : page op = some f)
    (hf : ∀ bs, f.operands bs = (decodeWord bs).andThen fun nn rest => .ok (k nn) rest) (nn : Word)
    (rest : List Byte) : decodePage page (op :: hi8 nn :: lo8 nn :: rest) = .ok (k nn) rest := by
  rw [decodePage_cons h, hf, Decoded.andThen_of_ok (decodeWord_hi8_lo8 nn rest)]

theorem decodePage_registerPostbyte {k : AnyReg → AnyReg → Instr} (h : page op = some (.registerPostbyte k))
    (r1 r2 : AnyReg) (rest : List Byte) :
    decodePage page (op :: (r1.code ++ r2.code : Byte) :: rest) = .ok (k r1 r2) rest := by
  rw [decodePage_cons h, Format.operands, Decoded.andThen_of_ok (decodeRegPair_code r1 r2 rest)]

theorem decodePage_indexed {k : Indexed → Instr} (h : page op = some (.indexed k)) {p : Indexed}
    (hp : p.wellFormed = true) (rest : List Byte) : decodePage page (op :: p.bytes ++ rest) = .ok (k p) rest :=
  (decodePage_cons h _).trans (Decoded.andThen_of_ok (decodeIndexed_bytes hp rest))

theorem decodePage_mem {k : Mem → Instr} (h : ListsMem page d x e k) {m : Mem} (hm : m.wellFormed = true)
    (rest : List Byte) : decodePage page (m.encode d x e ++ rest) = .ok (k m) rest := by
  cases m with
  | direct n => exact decodePage_cons h.direct (n :: rest)
  | indexed p => exact decodePage_indexed h.indexed hm rest
  | extended nn => exact decodePage_word h.extended (fun _ => rfl) nn rest

theorem decodePage_src8 {k : Src8 → Instr} (h : ListsSrc8 page j d x e k) {src : Src8} (hs : src.wellFormed = true)
    (rest : List Byte) : decodePage page (src.encode j d x e ++ rest) = .ok (k src) rest := by
  cases src with
  | imm n => exact decodePage_cons h.imm (n :: rest)
  | mem m => exact decodePage_mem h.mem hs rest

theorem decodePage_src16 {k : Src16 → Instr} (h : ListsSrc16 page j d x e k) {src : Src16}
    (hs : src.wellFormed = true) (rest : List Byte) :
    decodePage page (src.encode j d x e ++ rest) = .ok (k src) rest := by
  cases src with
  | imm nn => exact decodePage_word h.imm (fun _ => rfl) nn rest
  | mem m => exact decodePage_mem h.mem hs rest

end Rows

/-- Settles O1: an operand is read back from its bytes, and every opcode stands on its page. What has no operand, or
one byte of it, is read by evaluation. -/
theorem decodeOfEncodeIsCanonical : Obligations.DecodeOfEncodeIsCanonical := by
  intro i rest h
  cases i with
  | adca src | adcb src | adda src | addb src | cmpa src | cmpb src | sbca src | sbcb src | suba src | subb src
  | anda src | andb src | bita src | bitb src | eora src | eorb src | ora src | orb src | lda src | ldb src =>
    exact decode_of_page1 (decodePage_src8 ⟨rfl, rfl, rfl, rfl⟩ h rest)
  | addd src | subd src | cmpx src | ldd src | ldu src | ldx src =>
    exact decode_of_page1 (decodePage_src16 ⟨rfl, rfl, rfl, rfl⟩ h rest)
  | cmpd src | cmpy src | lds src | ldy src =>
    exact (decode_page2 _).trans (decodePage_src16 ⟨rfl, rfl, rfl, rfl⟩ h rest)
  | cmps src | cmpu src => exact (decode_page3 _).trans (decodePage_src16 ⟨rfl, rfl, rfl, rfl⟩ h rest)
  | neg m | com m | lsr m | ror m | asr m | asl m | lsl m | rol m | dec m | inc m | tst m | jmp m | clr m | jsr m
  | sta m | stb m | std m | stu m | stx m =>
    exact decode_of_page1 (decodePage_mem ⟨rfl, rfl, rfl⟩ h rest)
  | sts m | sty m => exact (decode_page2 _).trans (decodePage_mem ⟨rfl, rfl, rfl⟩ h rest)
  | leax p | leay p | leas p | leau p => exact decode_of_page1 (decodePage_indexed rfl h rest)
  | tfr r1 r2 | exg r1 r2 => exact decode_of_page1 (decodePage_registerPostbyte rfl r1 r2 rest)
  | lbra off | lbsr off => exact decode_of_page1 (decodePage_word rfl (fun _ => rfl) off rest)
  | lbrn off | lbhi off | lbls off | lbcc off | lbhs off | lbcs off | lblo off | lbne off | lbeq off | lbvc off
  | lbvs off | lbpl off | lbmi off | lbge off | lblt off | lbgt off | lble off =>
    exact (decode_page2 _).trans (decodePage_word rfl (fun _ => rfl) off rest)
  | abx | clra | clrb | daa | deca | decb | inca | incb | mul | nega | negb | sex | tsta | tstb | asla | aslb | asra
  | asrb | coma | comb | lsla | lslb | lsra | lsrb | rola | rolb | rora | rorb | nop | rts | swi | swi2 | swi3 | rti
  | sync => rfl
  | andcc _ | orcc _ | cwai _ | pshs _ | pshu _ | puls _ | pulu _ | bcc _ | bcs _ | beq _ | bge _ | bgt _ | bhi _
  | bhs _ | ble _ | blo _ | bls _ | blt _ | bmi _ | bne _ | bpl _ | bra _ | brn _ | bsr _ | bvc _ | bvs _ => rfl

end Sys2Proof


/-! # What the decoder answers (R90, R110, R114, R120) -/

namespace Sys2Proof

/-- A decoder reads a whole block of bytes, and nothing of those after it, and what it makes of the block has `P`. -/
def ReadsBlock {α : Type} (P : α → Prop) (dec : List Byte → Decoded α) : Prop :=
  ∀ bs x rest, dec bs = .ok x rest → P x ∧ ∃ block, bs = block ++ rest ∧ dec block = .ok x []

section Blocks
variable {α β : Type} {P : α → Prop} {Q : β → Prop} {dec : List Byte → Decoded α}

theorem ReadsBlock.pure {x : α} (hx : P x) : ReadsBlock P (Decoded.ok x) := by
  intro bs y rest h
  cases h
  exact ⟨hx, [], rfl, rfl⟩

theorem ReadsBlock.stop (d : Decoded α) (hd : ∀ x rest, d ≠ .ok x rest) : ReadsBlock P fun _ => d :=
  fun _ _ _ h => absurd h (hd _ _)

/-- One byte, and then what it calls for. -/
theorem ReadsBlock.of_cons (hnil : dec [] = .short) (hcons : ∀ b, ReadsBlock P fun rest => dec (b :: rest)) :
    ReadsBlock P dec := by
  intro bs x rest h
  cases bs with
  | nil => rw [hnil] at h; cases h
  | cons b tail =>
    obtain ⟨hx, block, rfl, hblock⟩ := hcons b tail x rest h
    exact ⟨hx, b :: block, rfl, hblock⟩

/-- Making something of what was decoded. -/
theorem ReadsBlock.map (h : ReadsBlock P dec) {f : α → β} (hf : ∀ x, P x → Q (f x)) :
    ReadsBlock Q fun bs => (dec bs).andThen fun x rest => .ok (f x) rest := by
  intro bs y rest hd
  obtain ⟨x, left, hx, he⟩ := Decoded.andThen_eq_ok.1 hd
  cases he
  obtain ⟨hP, block, hbs, hblock⟩ := h _ _ _ hx
  exact ⟨hf x hP, block, hbs, Decoded.andThen_of_ok hblock⟩

end Blocks

/-! ## The operands -/

theorem decodeByte_readsBlock : ReadsBlock (fun _ => True) decodeByte := .of_cons rfl fun _ => .pure trivial

theorem decodeWord_readsBlock : ReadsBlock (fun _ => True) decodeWord :=
  .of_cons rfl fun _ => .of_cons rfl fun _ => .pure trivial

theorem decodeRegPair_readsBlock : ReadsBlock (fun _ => True) decodeRegPair := by
  refine .of_cons rfl fun pb => ?_
  simp only [decodeRegPair]
  cases decodeRegCode (pb.extractLsb' 4 4) with
  | none => exact .stop .undefinedRegisterCode nofun
  | some r1 =>
    cases decodeRegCode (pb.extractLsb' 0 4) with
    | none => exact .stop .undefinedRegisterCode nofun
    | some r2 => exact .pure trivial

/-- The indirect forms that no postbyte selects are not read (R161). -/
theorem decodeForm_readsBlock (pb : Byte) (r : IndexReg) (ind : Bool) :
    ReadsBlock (·.wellFormed = true) (decodeForm pb r ind) := by
  have undefined : ReadsBlock (·.wellFormed = true) fun _ => (.undefinedPostbyte : Decoded Indexed) := .stop _ nofun
  have allowed (f : IndexForm) (hf : f.allowsIndirect = true) : (Indexed.form r f ind).wellFormed = true := by
    rw [Indexed.wellFormed, hf, Bool.or_true]
  unfold decodeForm
  split
  case h_1 | h_3 =>
    split
    · exact undefined
    · exact .pure rfl
  case h_8 => exact decodeByte_readsBlock.map fun n _ => allowed (.off8 n) rfl
  case h_9 => exact decodeWord_readsBlock.map fun nn _ => allowed (.off16 nn) rfl
  case h_11 => exact decodeByte_readsBlock.map fun _ _ => rfl
  case h_12 => exact decodeWord_readsBlock.map fun _ _ => rfl
  case h_13 =>
    split
    · exact decodeWord_readsBlock.map fun _ _ => rfl
    · exact undefined
  case h_14 => exact undefined
  all_goals exact .pure (allowed _ rfl)

theorem decodeIndexed_readsBlock : ReadsBlock (·.wellFormed = true) decodeIndexed := by
  refine .of_cons rfl fun pb => ?_
  simp only [decodeIndexed]
  split
  · exact decodeForm_readsBlock pb _ _
  · exact .pure rfl

/-! ## The rows of the opcode map -/

/-- An operand for each format; a format uses the fields it has need of. -/
structure Operands where
  byte : Byte := 0
  word : Word := 0
  indexed : Indexed := .extInd 0
  wellFormed : indexed.wellFormed = true := by rfl
  first : AnyReg := .byte .a
  second : AnyReg := .byte .a

/-- The instruction a format makes of its operand. -/
def Format.instr (v : Operands) : Format → Instr
  | .inherent i => i
  | .immediate8 k => k v.byte
  | .immediate16 k => k v.word
  | .direct k => k (.direct v.byte)
  | .extended k => k (.extended v.word)
  | .indexed k => k v.indexed
  | .relative8 k => k v.byte
  | .relative16 k => k v.word
  | .registerPostbyte k => k v.first v.second
  | .stackPostbyte k => k v.byte

theorem Format.operands_readsBlock (f : Format) : ReadsBlock (fun i => ∃ v, i = f.instr v) f.operands := by
  cases f with
  | inherent i => exact .pure ⟨{}, rfl⟩
  | immediate8 k | direct k | relative8 k | stackPostbyte k =>
    exact decodeByte_readsBlock.map fun n _ => ⟨{ byte := n }, rfl⟩
  | immediate16 k | relative16 k | extended k => exact decodeWord_readsBlock.map fun nn _ => ⟨{ word := nn }, rfl⟩
  | indexed k => exact decodeIndexed_readsBlock.map fun p hp => ⟨{ indexed := p, wellFormed := hp }, rfl⟩
  | registerPostbyte k =>
    exact decodeRegPair_readsBlock.map fun r _ => ⟨{ first := r.1, second := r.2 }, rfl⟩

/-- The instructions that bytes can stand for: no second name (R120), and well formed but for the sizes of the
registers of TFR and EXG, which the decoder does not compare (R311, R312). -/
def Instr.isRead : Instr → Bool
  | .lsl _ | .lsla | .lslb | .bhs _ | .blo _ | .lbhs _ | .lblo _ => false
  | .tfr _ _ | .exg _ _ => true
  | i => i.wellFormed

theorem Instr.canonical_of_isRead {i : Instr} (h : i.isRead = true) : i.canonical = i := by
  cases i with
  | lsl _ | lsla | lslb | bhs _ | blo _ | lbhs _ | lblo _ => cases h
  | _ => rfl

theorem Instr.wellFormed_of_isRead {i : Instr} (h : i.isRead = true) :
    WellFormed i ∨ ∃ r1 r2, i = .tfr r1 r2 ∨ i = .exg r1 r2 := by
  cases i with
  | lsl _ | lsla | lslb | bhs _ | blo _ | lbhs _ | lblo _ => cases h
  | tfr r1 r2 => exact .inr ⟨r1, r2, .inl rfl⟩
  | exg r1 r2 => exact .inr ⟨r1, r2, .inr rfl⟩
  | _ => exact .inl h

/-- Every row of a page makes instructions that can be read, whatever the operand. -/
def PageIsRead (page : Byte → Option Format) : Prop :=
  ∀ op v, (page op).all (fun f => (f.instr v).isRead) = true

/-- R111 to R113, opcode by opcode: what a row makes is well formed at once, or as its indexed operand is. -/
theorem rows_areRead (op : Byte) (v : Operands) :
    (page1 op).all (fun f => (f.instr v).isRead) = true ∧ (page2 op).all (fun f => (f.instr v).isRead) = true ∧
      (page3 op).all (fun f => (f.instr v).isRead) = true := by
  have hindexed := v.wellFormed
  obtain ⟨op⟩ := op
  fin_cases op
  all_goals trivial

theorem page1_isRead : PageIsRead page1 := by
  intro op v
  obtain ⟨hrow, -, -⟩ := rows_areRead op v
  exact hrow

theorem page2_isRead : PageIsRead page2 := by
  intro op v
  obtain ⟨-, hrow, -⟩ := rows_areRead op v
  exact hrow

theorem page3_isRead : PageIsRead page3 := by
  intro op v
  obtain ⟨-, -, hrow⟩ := rows_areRead op v
  exact hrow

/-! ## The instruction -/

theorem decodePage_cons_readsBlock {page : Byte → Option Format} (hpage : PageIsRead page) (op : Byte) :
    ReadsBlock (·.isRead = true) fun rest => decodePage page (op :: rest) := by
  have hrow := hpage op
  simp only [decodePage]
  cases hop : page op with
  | none => exact .stop .undefinedOpcode nofun
  | some f =>
    intro bs i rest h
    obtain ⟨⟨v, rfl⟩, hblock⟩ := f.operands_readsBlock bs i rest h
    have hv := hrow v
    rw [hop] at hv
    exact ⟨hv, hblock⟩

theorem decodePage_readsBlock {page : Byte → Option Format} (hpage : PageIsRead page) :
    ReadsBlock (·.isRead = true) (decodePage page) := .of_cons rfl (decodePage_cons_readsBlock hpage)

theorem decode_readsBlock : ReadsBlock (·.isRead = true) decode := by
  refine .of_cons rfl fun b => ?_
  by_cases h2 : b = 0x10
  · simp only [h2, decode_page2]
    exact decodePage_readsBlock page2_isRead
  by_cases h3 : b = 0x11
  · simp only [h3, decode_page3]
    exact decodePage_readsBlock page3_isRead
  simp only [decode_page1 h2 h3]
  exact decodePage_cons_readsBlock page1_isRead b

/-- Settles O2: the block is the one `decode_readsBlock` finds, and what `decode_reads` says of the bytes after an
instruction holds of the bytes after the block. -/
theorem decodeReadsOneBlock : Obligations.DecodeReadsOneBlock := by
  intro bs i rest h
  obtain ⟨hread, block, rfl, hblock⟩ := decode_readsBlock bs i rest h
  refine ⟨block, rfl, ?pos, ?len, fun more => ?more, fun k hk => ?short, Instr.canonical_of_isRead hread,
    Instr.wellFormed_of_isRead hread⟩
  case pos =>
    refine List.length_pos_of_ne_nil ?_
    rintro rfl
    cases hblock
  case len => exact (decode_reads.length_le hblock).trans (by decide)
  case more =>
    rw [decode_reads.append block more (by rw [hblock]; exact nofun), hblock]
    rfl
  case short =>
    refine decode_reads.eq_short (x := i) (more := block.drop k) ?_ (by simpa using hk)
    rw [List.take_append_drop, hblock]

end Sys2Proof

/-! # Examples and second names (R98 to R107, R111 to R113, R120) -/

namespace Sys2Proof.Machine

open Sys2Proof.Claims

/-- Settles O3, by evaluation. -/
theorem sampleWordsDecode : Obligations.SampleWordsDecode := by
  unfold Obligations.SampleWordsDecode
  decide

/-- The two names of a row have the same words, which begin with the opcode of the row (R120). -/
theorem aliasRows_encode {m : Mem} {off : Byte} {long : Word} {row : AliasRow} (h : row ∈ aliasRows m off long) :
    row.second.canonical = row.primary ∧ encode row.second = encode row.primary ∧
      row.opcode <+: encode row.primary := by
  simp only [aliasRows, List.mem_cons, List.not_mem_nil, or_false] at h
  rcases h with rfl | rfl | rfl | rfl | rfl | rfl | rfl
  · cases m <;> exact ⟨rfl, rfl, _, rfl⟩
  all_goals exact ⟨rfl, rfl, _, rfl⟩

/-- Only the second names of R120 stand for another instruction. -/
theorem exists_aliasRow {i : Instr} (h : i.canonical ≠ i) :
    ∃ m off long, ∃ row ∈ aliasRows m off long, row.second = i := by
  cases i with
  | lsl m => exact ⟨m, 0, 0, ⟨_, .asl m, .lsl m⟩, .head _, rfl⟩
  | lsla => exact ⟨.direct 0, 0, 0, ⟨[0x48], .asla, .lsla⟩, by simp [aliasRows], rfl⟩
  | lslb => exact ⟨.direct 0, 0, 0, ⟨[0x58], .aslb, .lslb⟩, by simp [aliasRows], rfl⟩
  | bhs off => exact ⟨.direct 0, off, 0, ⟨[0x24], .bcc off, .bhs off⟩, by simp [aliasRows], rfl⟩
  | lbhs off => exact ⟨.direct 0, 0, off, ⟨[0x10, 0x24], .lbcc off, .lbhs off⟩, by simp [aliasRows], rfl⟩
  | blo off => exact ⟨.direct 0, off, 0, ⟨[0x25], .bcs off, .blo off⟩, by simp [aliasRows], rfl⟩
  | lblo off => exact ⟨.direct 0, 0, off, ⟨[0x10, 0x25], .lbcs off, .lblo off⟩, by simp [aliasRows], rfl⟩
  | _ => exact absurd rfl h

/-- Either name is given its meaning by the same operation: the shift to the left, or the branch on C. -/
theorem exec_canonical (i : Instr) (s : State) : exec i s = exec i.canonical s := by
  cases i with
  | lsl _ | lsla | lslb => rfl
  | bhs _ | lbhs _ | blo _ | lblo _ => rfl
  | _ => rfl

/-- Settles O60: the words are those of the primary name, so O1 says what they decode to. -/
theorem aliasesRunAsPrimary : Obligations.AliasesRunAsPrimary := by
  refine ⟨fun m off long row hrow => ?_, fun i => exists_aliasRow, exec_canonical⟩
  obtain ⟨hcanonical, hwords, hopcode⟩ := aliasRows_encode hrow
  refine ⟨hcanonical, hwords, hopcode, fun hwf rest => ?_⟩
  rw [← hcanonical]
  exact decodeOfEncodeIsCanonical row.second rest hwf

end Sys2Proof.Machine

/-! # Addressing modes (R142 to R160) -/

namespace Sys2Proof.Machine

/-- Settles O27, by the definition of the three modes. -/
theorem directExtendedImmediateOperands : Obligations.DirectExtendedImmediateOperands :=
  ⟨fun n s => ⟨be16 s.dp n, rfl, be16_toNat s.dp n⟩, fun _ _ => rfl, fun _ _ _ => rfl, fun _ _ _ => rfl⟩

/-! ## Forms with an offset (R147 to R152, R157, R158) -/

section Offsets
variable {p : Indexed} {s : State} {base off : Word}

/-- An offset that is a signed number. -/
theorem indexedAddress_signed (h : indexedAddress p s = .next (base + off, s)) :
    ∃ ea, indexedAddress p s = .next (ea, s) ∧ (ea.toNat : Int) = ((base.toNat : Int) + off.toInt) % 65536 :=
  ⟨_, h, add_toNat_signed base off⟩

/-- An offset of 16 bits, which needs no sign (R65). -/
theorem indexedAddress_unsigned (h : indexedAddress p s = .next (base + off, s)) :
    ∃ ea, indexedAddress p s = .next (ea, s) ∧ (ea.toNat : Int) = ((base.toNat : Int) + off.toNat) % 65536 :=
  ⟨_, h, by rw [BitVec.toNat_add]; rfl⟩

end Offsets

/-- Settles O28: every form adds its offset, extended by its sign where it has fewer than 16 bits. -/
theorem offsetsGiveIndexedAddresses : Obligations.OffsetsGiveIndexedAddresses := by
  intro r s
  refine ⟨fun n => ?off5, ?zero, fun n => ?off8, fun nn => indexedAddress_unsigned rfl, ?accA, ?accB, ?accD,
    fun n => ?pcr8, fun nn => indexedAddress_signed rfl⟩
  case off5 =>
    rw [← sext5_toInt]
    exact indexedAddress_signed rfl
  case zero => exact ⟨s.getIndex r, rfl, by have := (s.getIndex r).isLt; omega⟩
  case off8 | pcr8 | accA | accB =>
    rw [← sext8_toInt]
    exact indexedAddress_signed rfl
  case accD =>
    have hd : (256 * (s.a.toNat : Int) + s.b.toNat) = s.d.toNat := by rw [State.d, be16_toNat]; rfl
    rw [hd]
    exact indexedAddress_unsigned rfl

/-! ## Automatic increment and decrement (R153 to R156) -/

/-- A form that writes its index register gives its address and its new register, and changes nothing else. -/
theorem indexedAddress_auto {r : IndexReg} {f : IndexForm} {s : State} {q v : Word} {ea new : Int}
    (h : indexedAddress (.form r f false) s = .next (q, s.setIndex r v)) (hq : (q.toNat : Int) = ea % 65536)
    (hv : (v.toNat : Int) = new % 65536) :
    ∃ q t, indexedAddress (.form r f false) s = .next (q, t) ∧ (q.toNat : Int) = ea % 65536 ∧
      ((t.getIndex r).toNat : Int) = new % 65536 ∧ ChangesOnly [r.name] [] [] s t :=
  ⟨q, _, h, hq, by rw [State.getIndex_setIndex, hv], .setIndex s r v⟩

theorem sub_toNat_int (a b : Word) : ((a - b).toNat : Int) = ((a.toNat : Int) - b.toNat) % 65536 := by
  rw [BitVec.toNat_sub]
  omega

theorem toNat_int_mod (a : Word) : (a.toNat : Int) = (a.toNat : Int) % 65536 := by
  omega

/-- Settles O29: the increments give the register as it was, the decrements as they leave it. -/
theorem autoIncrementAndDecrement : Obligations.AutoIncrementAndDecrement := by
  intro r s
  refine ⟨?inc1, ?inc2, ?dec1, ?dec2⟩
  case inc1 | inc2 => exact indexedAddress_auto rfl (toNat_int_mod _) (add_toNat_signed _ _)
  case dec1 | dec2 => exact indexedAddress_auto rfl (sub_toNat_int _ _) (sub_toNat_int _ _)

/-! ## Indirection (R159, R160) -/

/-- An operand whose address is a pointer in memory: where its two bytes can be read, they are the address. -/
theorem address_of_pointer {p : Indexed} {s t : State} {ea1 : Word}
    (h : indexedAddress p s = read16 .other ea1 t) :
    (∀ hi lo, t.Reads16 ea1 hi lo →
      ∃ ea, indexedAddress p s = .next (ea, t) ∧ ea.toNat = 256 * hi.toNat + lo.toNat) ∧
    indexedAddress p s = read16 .other ea1 t :=
  ⟨fun hi lo hword => ⟨be16 hi lo, by rw [h, read16_of_reads .other hword], be16_toNat hi lo⟩, h⟩

/-- The indirect form of an index register reads its pointer where the direct form points. -/
theorem indexedAddress_form_indirect {r : IndexReg} {f : IndexForm} {s t : State} {ea1 : Word}
    (hf : f.allowsIndirect = true) (h : indexedAddress (.form r f false) s = .next (ea1, t)) :
    indexedAddress (.form r f true) s = read16 .other ea1 t := by
  have hform : formAddress r f s = (ea1, t) := Host.Outcome.next.inj h
  simp [indexedAddress, indirect, hf, hform]

/-- Settles O30: every indirect form is a read of a word at the address of the direct form. -/
theorem indirectFormsReadPointer : Obligations.IndirectFormsReadPointer := by
  refine ⟨fun r f s t ea1 hf h => address_of_pointer (indexedAddress_form_indirect hf h),
    fun n s t ea1 h => address_of_pointer ?pcr8, fun nn s t ea1 h => address_of_pointer ?pcr16,
    fun nn s => address_of_pointer rfl⟩
  case pcr8 | pcr16 =>
    cases h
    rfl

end Sys2Proof.Machine

/-! # Undefined indexed postbytes (R161, R165) -/

namespace Sys2Proof

/-- Reading an offset cannot make a postbyte undefined. -/
theorem decodeByte_ne_undefinedPostbyte (k : Byte → Indexed) (bs : List Byte) :
    ((decodeByte bs).andThen fun n rest => .ok (k n) rest) ≠ .undefinedPostbyte := by
  cases bs <;> exact nofun

theorem decodeWord_ne_undefinedPostbyte (k : Word → Indexed) (bs : List Byte) :
    ((decodeWord bs).andThen fun nn rest => .ok (k nn) rest) ≠ .undefinedPostbyte := by
  match bs with
  | [] | [_] | _ :: _ :: _ => exact nofun

/-- A postbyte with bit 7 set, as R161 has it: the form MMMM is undefined, or undefined with indirection, or extended
indirect in a postbyte other than 9FH. -/
def UndefinedForm (pb : Byte) (ind : Bool) : Prop :=
  let mmmm := (pb.extractLsb' 0 4).toNat
  mmmm ∈ [7, 10, 14] ∨ (mmmm ∈ [0, 2] ∧ ind = true) ∨ (mmmm = 15 ∧ pb ≠ 0x9F#8)

theorem decodeForm_eq_undefinedPostbyte (pb : Byte) (r : IndexReg) (ind : Bool) (bs : List Byte) :
    decodeForm pb r ind bs = .undefinedPostbyte ↔ UndefinedForm pb ind := by
  unfold decodeForm UndefinedForm
  split
  case h_1 hm | h_3 hm => cases ind <;> simp [hm]
  case h_8 hm | h_11 hm => simp [hm, decodeByte_ne_undefinedPostbyte]
  case h_9 hm | h_12 hm => simp [hm, decodeWord_ne_undefinedPostbyte]
  case h_13 hm =>
    split
    next h9F => simp [h9F, decodeWord_ne_undefinedPostbyte]
    next h9F => simp [hm, h9F]
  case h_14 =>
    have hlt := (pb.extractLsb' 0 4).isLt
    have hmem : (pb.extractLsb' 0 4).toNat ∈ [7, 10, 14] := by
      simp only [imp_false, List.mem_cons, List.not_mem_nil, or_false] at *
      omega
    exact ⟨fun _ => .inl hmem, fun _ => rfl⟩
  all_goals simp [*]

/-- R165's last row, postbyte by postbyte. -/
theorem undefinedForm_iff_mem :
    ∀ pb : Byte, pb.getLsbD 7 = true ∧ UndefinedForm pb (pb.getLsbD 4) ↔ pb ∈ Claims.undefinedPostbytes := by
  unfold UndefinedForm
  decide

theorem decodeIndexed_eq_undefinedPostbyte (pb : Byte) (rest : List Byte) :
    decodeIndexed (pb :: rest) = .undefinedPostbyte ↔ pb ∈ Claims.undefinedPostbytes := by
  rw [← undefinedForm_iff_mem, decodeIndexed]
  split
  next hbit => simp [hbit, decodeForm_eq_undefinedPostbyte]
  next hbit => exact ⟨nofun, fun h => absurd h.1 hbit⟩

/-- An instruction on an indexed operand is undefined with its postbyte. -/
theorem decodePage_undefinedPostbyte {page : Byte → Option Format} {op pb : Byte} {k : Indexed → Instr}
    (hop : page op = some (.indexed k)) (hpb : pb ∈ Claims.undefinedPostbytes) (rest : List Byte) :
    decodePage page (op :: pb :: rest) = .undefinedPostbyte := by
  rw [decodePage_cons hop, Format.operands, (decodeIndexed_eq_undefinedPostbyte pb rest).2 hpb]
  rfl

/-- R305: the opcodes of LEA are on page 1, and what follows them is an indexed operand. -/
theorem page1_lea {op : Byte} (h : op ∈ [(0x30 : Byte), 0x31, 0x32, 0x33]) : ∃ k, page1 op = some (.indexed k) := by
  simp only [List.mem_cons, List.not_mem_nil, or_false] at h
  rcases h with rfl | rfl | rfl | rfl <;> exact ⟨_, rfl⟩

end Sys2Proof

namespace Sys2Proof.Machine

open Sys2Proof.Claims

theorem fetchInstr_of_undefinedPostbyte {fuel : Nat} {got : List Byte} {s : State}
    (h : decode got = .undefinedPostbyte) : fetchInstr fuel got s = .refused .undefinedPostbyte := by
  rw [fetchInstr.eq_def, h]

/-- A step on an opcode of page 1 that takes an indexed operand, with a postbyte that selects no form: the fetch stops
after the postbyte. -/
theorem step_of_undefinedPostbyte {s : State} {op pb : Byte} {k : Indexed → Instr} (hrun : RunsInstruction s)
    (hop : page1 op = some (.indexed k)) (hs : Holds s s.pc [op, pb]) (hpb : pb ∈ undefinedPostbytes) :
    step s = .refused .undefinedPostbyte := by
  have h2 : op ≠ 0x10 := by rintro rfl; cases hop
  have h3 : op ≠ 0x11 := by rintro rfl; cases hop
  have hshort : decode [op] = .short := (decode_page1 h2 h3 []).trans (decodePage_cons hop [])
  have hundef : decode [op, pb] = .undefinedPostbyte :=
    (decode_page1 h2 h3 [pb]).trans (decodePage_undefinedPostbyte hop hpb [])
  obtain ⟨hb0, hs'⟩ := holds_cons.1 hs
  obtain ⟨hb1, -⟩ := holds_cons.1 hs'
  have hfetch0 := fetchInstr_of_short (s := s.sampled) (fuel := 4) (got := []) rfl hb0
  have hfetch1 := fetchInstr_of_short (s := { s.sampled with pc := s.pc + 1#16 }) (fuel := 3) hshort hb1
  rw [step_of_runsInstruction hrun, runInstr]
  exact congrArg (Result.andThen · _) (hfetch0.trans (hfetch1.trans (fetchInstr_of_undefinedPostbyte hundef)))

/-- Settles O5: the decoder finds undefined what R161 lists, and the fetch of LEA stops there. -/
theorem undefinedPostbytesRefused : Obligations.UndefinedPostbytesRefused := by
  refine ⟨decodeIndexed_eq_undefinedPostbyte, fun s op pb hrun hop hs hpb => ?_⟩
  obtain ⟨k, hk⟩ := page1_lea hop
  exact step_of_undefinedPostbyte hrun hk hs hpb

end Sys2Proof.Machine

/-! # Instructions that complete after an address was computed -/

namespace Sys2Proof.Machine

open Sys2Proof.Claims

section Completing
variable {i : Instr} {log : List Config.DeviceAccess} {arm : Bool} {upd regs : List RegName} {flags : List Flag}
  {bytes : List Word} {s t u : State} {P Q : State → Prop}

theorem armNmi_eq_armedIf (s : State) (writer : Config.NmiArmSet → Bool) :
    s.armNmi writer = armedIf (writer s.policies.nmiArm) s := by
  cases h : writer s.policies.nmiArm <;> simp [armedIf, State.armNmi, h]

/-- An instruction that may arm NMI as the last thing it does: its frame is that of what it did before (R404). -/
theorem completesWith_of_armed (haddr : Addressed upd s t) (hexec : exec i s = .next (armedIf arm u))
    (hframe : ChangesOnly regs flags bytes t u) (hlog : u.deviceLog = log) (hP : P (armedIf arm u)) :
    CompletesWith log i s t arm upd regs flags bytes P :=
  ⟨_, hexec, hframe.armedIf arm, (haddr.changes.trans hframe).armedIf arm, (armedIf_deviceLog arm u).trans hlog, hP⟩

theorem CompletesWith.imp (h : CompletesWith log i s t arm upd regs flags bytes P) (hPQ : ∀ u, P u → Q u) :
    CompletesWith log i s t arm upd regs flags bytes Q := by
  obtain ⟨u, hexec, hframe, hframe', hlog, hP⟩ := h
  exact ⟨u, hexec, hframe, hframe', hlog, hPQ u hP⟩

end Completing

/-! ## Compares of a word (R217 to R220) -/

/-- The flags of a 16-bit subtraction, as numbers (R203). -/
theorem subtractWord_flags (a v : Word) (s : State) :
    NZ16 ((65536 + a.toNat - v.toNat) % 65536) (subtractWord a v s).2 ∧
      (subtractWord a v s).2.flag .v = over16 (a.toInt - v.toInt) ∧
      (subtractWord a v s).2.flag .c = decide (a.toNat < v.toNat) := by
  have hr : (sub16 a v).r.toNat = (65536 + a.toNat - v.toNat) % 65536 := by
    have := sub16_r a v
    have := v.isLt
    omega
  simp [NZ16, subtractWord, sub16_n, sub16_z, sub16_v, sub16_c, isNeg_word, isZero_iff, hr, over16]

theorem exec_wordCompare {row : (Src16 → Instr) × Reg16} (hrow : row ∈ wordCompares) (src : Src16) (s : State) :
    exec (row.1 src) s = compare16 row.2 src subtractWord s := by
  simp only [wordCompares, List.mem_cons, List.not_mem_nil, or_false] at hrow
  rcases hrow with rfl | rfl | rfl | rfl | rfl <;> rfl

/-- Settles O35: every compare is `compare16` of its register, as it is after the operand was read. -/
theorem wordComparesSetFlags : Obligations.WordComparesSetFlags := by
  intro row hrow src s t v hsrc a
  have hexec : exec (row.1 src) s = .next (subtractWord a v t).2 := by
    rw [exec_wordCompare hrow, compare16, hsrc]
    rfl
  have honly := subtractWord_only a v t
  exact completesWith_of_addressed (source16_state hsrc) hexec
    (honly.changes [] [] (subtractWord_keeps a v t)) honly.deviceLog (subtractWord_flags a v t)

/-! ## LEA (R305) -/

section LoadAddress
variable {i : Instr} {p : Indexed} {s t : State} {ea : Word}

theorem State.get16_setFlag (s : State) (g : Flag) (q : Bool) (r : Reg16) : (s.setFlag g q).get16 r = s.get16 r := by
  cases r <;> rfl

/-- LEAX and LEAY. -/
theorem loadAddressZ_completes {r : Reg16} (hi : exec i s = loadAddressZ r p s)
    (haddr : indexedAddress p s = .next (ea, t)) :
    Completes i s t false (updatesIndexed p) r.names [.z] [] fun u =>
      u.get16 r = ea ∧ u.flag .z = decide (ea.toNat = 0) := by
  have hexec : exec i s = .next ((t.set16 r ea).setFlag .z (isZero ea)) := by
    rw [hi, loadAddressZ, haddr]
    rfl
  have hflag : ChangesOnly [] [.z] [] (t.set16 r ea) ((t.set16 r ea).setFlag .z (isZero ea)) :=
    (FlagsOnly.setFlag _ .z _).changes [] [] fun g hg => by simp_all
  refine completesWith_of_addressed (indexedAddress_state haddr) hexec ?frame (by simp) ⟨?value, ?zero⟩
  case frame => exact ((ChangesOnly.set16 t r ea).trans hflag).mono (by simp) (by simp) (by simp)
  case value => rw [State.get16_setFlag, State.get16_set16]
  case zero => simp [isZero_iff]

/-- LEAS and LEAU: no flag is written, and the arming of NMI, if any, comes last. -/
theorem loadAddress_completes {r : Reg16} {arm : Bool} (hi : exec i s = .next (armedIf arm (t.set16 r ea)))
    (haddr : indexedAddress p s = .next (ea, t)) :
    Completes i s t arm (updatesIndexed p) r.names [] [] fun u => u.get16 r = ea := by
  refine completesWith_of_armed (indexedAddress_state haddr) hi (ChangesOnly.set16 t r ea) (by simp) ?_
  cases arm <;> exact State.get16_set16 t r ea

end LoadAddress

/-- Settles O48: the address is loaded as it was computed, and S loaded by LEAS arms NMI as the policies say. -/
theorem leaLoadsEffectiveAddress : Obligations.LeaLoadsEffectiveAddress := by
  intro p s t ea haddr
  have hleau : exec (.leau p) s = .next (t.set16 .u ea) := by
    simp [exec, execLeau, loadAddress, haddr]
  have hleas : exec (.leas p) s = .next (armedIf s.policies.nmiArm.leas (t.set16 .s ea)) := by
    rw [← (indexedAddress_state haddr).policies]
    simp [exec, execLeas, loadAddress, haddr, armNmi_eq_armedIf]
  exact ⟨loadAddressZ_completes (r := .x) rfl haddr, loadAddressZ_completes (r := .y) rfl haddr,
    loadAddress_completes (r := .s) hleas haddr, loadAddress_completes (r := .u) (arm := false) hleau haddr⟩

end Sys2Proof.Machine

/-! # Calls (R357, R361, R379) -/

namespace Sys2Proof.Machine

open Sys2Proof.Claims

/-- The return address lies on stack S, high byte at the lower address (R77, R357). -/
def ReturnPushed (s u : State) : Prop :=
  u.s = s.s - 2 ∧ u.byteAt (s.s - 2) = some (BitVec.ofNat 8 (s.pc.toNat / 256)) ∧
    u.byteAt (s.s - 1) = some (BitVec.ofNat 8 (s.pc.toNat % 256))

section Calls
variable {i : Instr} {upd : List RegName} {s t u : State} {target : Word}

theorem room_of_writes (h1 : s.Writes (s.s - 1)) (h2 : s.Writes (s.s - 2)) : Room .s 2 s := by
  intro k hk hk2
  obtain rfl | rfl : k = 1 ∨ k = 2 := by omega
  · exact h1
  · exact h2

theorem sub_two_add_one (p : Word) : p - 2 + 1#16 = p - 1 := by bv_omega

/-- The return address lies where it was pushed. -/
theorem Stacked.returnPushed (h : Stacked .s [hi8 s.pc, lo8 s.pc] s u) : ReturnPushed s u := by
  have hsp : u.s = s.s - 2 := h.sp_eq
  have hhi : u.byteAt (u.s + 0#16) = some (hi8 s.pc) := h.stored 0 _ rfl
  have hlo : u.byteAt (u.s + 1#16) = some (lo8 s.pc) := h.stored 1 _ rfl
  rw [hsp, BitVec.add_zero, hi8_eq_ofNat] at hhi
  rw [hsp, sub_two_add_one, lo8_eq_ofNat] at hlo
  exact ⟨hsp, hhi, hlo⟩

/-- The frame of the push, and of PC loaded after it. -/
theorem Stacked.callFrame (h : Stacked .s [hi8 s.pc, lo8 s.pc] s u) (target : Word) :
    ChangesOnly [.s, .pc] [] [s.s - 2, s.s - 1] s (u.set16 .pc target) := by
  have hsp : u.sp .s = s.s - 2 := h.sp_eq
  have hbytes : addresses (u.sp .s) 2 = [s.s - 2, s.s - 1] := by
    rw [hsp, ← sub_two_add_one]
    simp [addresses, List.range_succ]
  refine (h.changes.trans (.set16 u .pc target)).mono (by simp [StackReg.name, Reg16.names]) (by simp) ?_
  simp [hbytes]

/-- A call: after its address was computed, the return address is pushed and PC loaded. -/
theorem call_completes (haddr : Addressed upd s t) (h1 : t.Writes (t.s - 1)) (h2 : t.Writes (t.s - 2))
    (hexec : ∀ u, push16 .s t.pc t = .next u → u.pc = t.pc → exec i s = .next { u with pc := target }) :
    Completes i s t false upd [.s, .pc] [] [t.s - 2, t.s - 1] fun u => ReturnPushed t u ∧ u.pc = target := by
  obtain ⟨u, hpush, hst⟩ := push16_stacked t.pc (room_of_writes h1 h2)
  have hpc : u.pc = t.pc := by
    obtain ⟨m, rfl⟩ := hst.shape
    simp
  exact completesWith_of_addressed haddr (hexec u hpush hpc) (hst.callFrame target) hst.deviceLog ⟨hst.returnPushed, rfl⟩

/-- BSR and LBSR: the offset counts from the return address. -/
theorem branchSubroutine_completes {off : Word} (hi : exec i s = branchSubroutine off s) (h1 : s.Writes (s.s - 1))
    (h2 : s.Writes (s.s - 2)) :
    Completes i s s false [] [.s, .pc] [] [s.s - 2, s.s - 1] fun u =>
      ReturnPushed s u ∧ (u.pc.toNat : Int) = ((s.pc.toNat : Int) + off.toInt) % 65536 := by
  have hcall : Completes i s s false [] [.s, .pc] [] [s.s - 2, s.s - 1] fun u =>
      ReturnPushed s u ∧ u.pc = s.pc + off := by
    refine call_completes (.refl [] s) h1 h2 fun u hpush hpc => ?_
    rw [hi, branchSubroutine, hpush, Result.andThen_next, branchTo, hpc]
  refine CompletesWith.imp hcall fun u ⟨hpushed, hpc⟩ => ⟨hpushed, ?_⟩
  rw [hpc, add_toNat_signed]

end Calls

/-- Settles O54: each of the three is a push of PC and then its jump. -/
theorem callsPushReturnAddress : Obligations.CallsPushReturnAddress := by
  refine ⟨fun off s h1 h2 => ?bsr, fun off s h1 h2 => branchSubroutine_completes rfl h1 h2,
    fun m s t ea haddr h1 h2 => ?jsr⟩
  case bsr =>
    rw [← sext8_toInt]
    exact branchSubroutine_completes rfl h1 h2
  case jsr =>
    refine call_completes (effectiveAddress_state haddr) h1 h2 fun u hpush _ => ?_
    simp [exec, execJsr, haddr, hpush]

end Sys2Proof.Machine

/-! # Instructions that write a register and flags (R200 to R234) -/

namespace Sys2Proof.Machine

open Sys2Proof.Claims

/-! ## The shapes that write a register, and how they complete -/

section RegisterShapes
variable {i : Instr} {s t w : State} {r : Reg8} {flags : List Flag} {P : State → Prop}

theorem State.set8_cc (s : State) (v : Byte) (hr : r ≠ .cc) : (s.set8 r v).cc = s.cc := by
  cases r with
  | cc => exact absurd rfl hr
  | _ => rfl

/-- A register other than CC written after a change. -/
theorem ChangesOnly.andSet8 {regs : List RegName} {bytes : List Word} (h : ChangesOnly regs flags bytes s t)
    (hr : r ≠ .cc) (v : Byte) : ChangesOnly (regs ++ r.names) flags bytes s (t.set8 r v) :=
  (h.trans (.set8 t r v)).mono (by simp) (by simp [hr]) (by simp)

/-- `r <- r op s`: computing the operand's address changes no 8-bit register, so the operation is on the register as it
was before. What is claimed of the next state may depend on the new register and CC. -/
theorem operate8_completes {src : Src8} {op : Byte → Byte → State → Byte × State} {v : Byte} (hr : r ≠ .cc)
    (hi : exec i s = operate8 .other r src op s) (hsrc : source8 .other src s = .next (v, t))
    (honly : FlagsOnly t (op (s.get8 r) v t).2)
    (hkeeps : ∀ g, g ∉ flags → (op (s.get8 r) v t).2.flag g = t.flag g)
    (hP : ∀ u, u.get8 r = (op (s.get8 r) v t).1 → u.cc = (op (s.get8 r) v t).2.cc → P u) :
    Completes i s t false (updates8 src) r.names flags [] P := by
  have haddr := source8_state hsrc
  have hexec : exec i s = .next ((op (s.get8 r) v t).2.set8 r (op (s.get8 r) v t).1) := by
    rw [hi, operate8, hsrc, ← haddr.get8 r]
    rfl
  exact completesWith_of_addressed haddr hexec ((honly.changes [] [] hkeeps).andSet8 hr _)
    ((State.set8_deviceLog _ r _).trans honly.deviceLog) (hP _ (State.get8_set8 _ r _) (State.set8_cc _ _ hr))

/-- `r op s`: the same without the register. -/
theorem compare8_completes {src : Src8} {op : Byte → Byte → State → Byte × State} {v : Byte}
    (hi : exec i s = compare8 r src op s) (hsrc : source8 .other src s = .next (v, t))
    (honly : FlagsOnly t (op (s.get8 r) v t).2)
    (hkeeps : ∀ g, g ∉ flags → (op (s.get8 r) v t).2.flag g = t.flag g)
    (hP : ∀ u, u.cc = (op (s.get8 r) v t).2.cc → P u) :
    Completes i s t false (updates8 src) [] flags [] P := by
  have haddr := source8_state hsrc
  have hexec : exec i s = .next (op (s.get8 r) v t).2 := by
    rw [hi, compare8, hsrc, ← haddr.get8 r]
    rfl
  exact completesWith_of_addressed haddr hexec (honly.changes [] [] hkeeps) honly.deviceLog (hP _ rfl)

/-- `r <- op r`. -/
theorem modifyReg_completes {op : Byte → State → Byte × State} (hr : r ≠ .cc) (hi : exec i s = modifyReg r op s)
    (honly : FlagsOnly s (op (s.get8 r) s).2)
    (hkeeps : ∀ g, g ∉ flags → (op (s.get8 r) s).2.flag g = s.flag g)
    (hP : ∀ u, u.get8 r = (op (s.get8 r) s).1 → u.cc = (op (s.get8 r) s).2.cc → P u) :
    Completes i s s false [] r.names flags [] P :=
  completesWith_of_addressed (.refl [] s) hi ((honly.changes [] [] hkeeps).andSet8 hr _)
    ((State.set8_deviceLog _ r _).trans honly.deviceLog) (hP _ (State.get8_set8 _ r _) (State.set8_cc _ _ hr))

theorem Addressed.d {upd : List RegName} (h : Addressed upd s t) : t.d = s.d := by
  obtain ⟨_, rfl | ⟨_, _, rfl, -⟩⟩ := h <;> simp [State.d]

/-- D as a number (R22). -/
theorem State.d_toNat (s : State) : s.d.toNat = 256 * s.a.toNat + s.b.toNat := be16_toNat s.a s.b

/-- `D <- D op s`. -/
theorem operateD_completes {src : Src16} {op : Word → Word → State → Word × State} {v : Word}
    (hi : exec i s = operate16 .other .d src op s) (hsrc : source16 .other src s = .next (v, t))
    (honly : FlagsOnly t (op s.d v t).2) (hkeeps : ∀ g, g ∉ flags → (op s.d v t).2.flag g = t.flag g)
    (hP : ∀ u, u.d = (op s.d v t).1 → u.cc = (op s.d v t).2.cc → P u) :
    Completes i s t false (updates16 src) [.a, .b] flags [] P := by
  have haddr := source16_state hsrc
  have hexec : exec i s = .next ((op s.d v t).2.set16 .d (op s.d v t).1) := by
    rw [hi, operate16, hsrc, ← haddr.d]
    rfl
  have hframe : ChangesOnly [.a, .b] flags [] t ((op s.d v t).2.set16 .d (op s.d v t).1) :=
    ((honly.changes [] [] hkeeps).trans (.set16 _ .d _)).mono (by simp [Reg16.names]) (by simp) (by simp)
  exact completesWith_of_addressed haddr hexec hframe honly.deviceLog (hP _ (State.get16_set16 _ .d _) rfl)

end RegisterShapes

/-! ## N and Z of a result (R204) -/

section ResultFlags
variable {n : Nat} {u : State}

theorem NZ8_of_byte {r : Byte} (hr : r.toNat = n) (hn : u.flag .n = isNeg r) (hz : u.flag .z = isZero r) :
    NZ8 n u :=
  ⟨by rw [hn, isNeg_byte, hr], by rw [hz, isZero_iff, hr]⟩

theorem NZ16_of_word {r : Word} (hr : r.toNat = n) (hn : u.flag .n = isNeg r) (hz : u.flag .z = isZero r) :
    NZ16 n u :=
  ⟨by rw [hn, isNeg_word, hr], by rw [hz, isZero_iff, hr]⟩

end ResultFlags

/-! ## Sums and differences of a byte (R211, R212, R216, R229, R231) -/

/-- ADC or ADD. -/
def addition (withCarry : Bool) : Byte → Byte → State → Byte × State :=
  if withCarry then addWithCarry else addNoCarry

/-- SBC or SUB. -/
def subtraction (withCarry : Bool) : Byte → Byte → State → Byte × State :=
  if withCarry then subtractWithCarry else subtract

/-- The carry an addition or subtraction takes in. -/
def carryIn (withCarry : Bool) (s : State) : Bool := withCarry && s.flag .c

theorem bit01_carryIn (withCarry : Bool) (s : State) :
    bit01 (carryIn withCarry s) = if withCarry ∧ s.flag .c = true then 1 else 0 := by
  simp [bit01, carryIn]

section ByteSums
variable (withCarry : Bool) (a v : Byte) (s : State)

theorem addition_eq : addition withCarry a v s =
    ((add8 a v (carryIn withCarry s)).r, (s.setNZVC (add8 a v (carryIn withCarry s))).setFlag .h
      (halfCarry a v (carryIn withCarry s))) := by
  cases withCarry <;> rfl

theorem subtraction_eq : subtraction withCarry a v s =
    ((sub8 a v (carryIn withCarry s)).r, (s.setNZVC (sub8 a v (carryIn withCarry s))).drawFlag .h .sub8H s.cc
      (zext8 a) (zext8 v)) := by
  cases withCarry <;> rfl

theorem addition_only : FlagsOnly s (addition withCarry a v s).2 := by
  cases withCarry
  · exact addNoCarry_only a v s
  · exact addWithCarry_only a v s

theorem addition_keeps (g : Flag) (hg : g ∉ [.h, .n, .z, .v, .c]) :
    (addition withCarry a v s).2.flag g = s.flag g := by
  cases withCarry
  · exact addNoCarry_keeps a v s g hg
  · exact addWithCarry_keeps a v s g hg

theorem subtraction_only : FlagsOnly s (subtraction withCarry a v s).2 := by
  cases withCarry
  · exact subtract_only a v s
  · exact subtractWithCarry_only a v s

theorem subtraction_keeps (g : Flag) (hg : g ∉ [.h, .n, .z, .v, .c]) :
    (subtraction withCarry a v s).2.flag g = s.flag g := by
  cases withCarry
  · exact subtract_keeps a v s g hg
  · exact subtractWithCarry_keeps a v s g hg

variable {withCarry a v s}

/-- The flags of a sum, as numbers (R200), in any state that has taken over the CC with them. -/
theorem addition_flags {u : State} (hcc : u.cc = (addition withCarry a v s).2.cc) :
    let c := bit01 (carryIn withCarry s)
    NZ8 ((a.toNat + v.toNat + c) % 256) u ∧
      u.flag .h = decide (16 ≤ a.toNat % 16 + v.toNat % 16 + c) ∧
      u.flag .v = over8 (a.toInt + v.toInt + c) ∧
      u.flag .c = decide (256 ≤ a.toNat + v.toNat + c) := by
  have hflag := State.flag_congr hcc
  rw [addition_eq] at hflag
  refine ⟨NZ8_of_byte (add8_r a v (carryIn withCarry s)) ?_ ?_, ?_, ?_, ?_⟩
  · simp [hflag, add8_n]
  · simp [hflag, add8_z]
  · simp [hflag, halfCarry_iff]
  · simp [hflag, add8_v, over8]
  · simp [hflag, add8_c]

theorem sub8_toNat (a v : Byte) (c : Bool) :
    (sub8 a v c).r.toNat = (256 + a.toNat - v.toNat + (256 - bit01 c)) % 256 := by
  have hr := sub8_r a v c
  have hv := v.isLt
  have hc : bit01 c ≤ 1 := by cases c <;> decide
  omega

/-- The flags of a difference, as numbers (R201), in any state that has taken over the CC with them; H is open. -/
theorem subtraction_flags {u : State} (hcc : u.cc = (subtraction withCarry a v s).2.cc) :
    let c := bit01 (carryIn withCarry s)
    NZ8 ((256 + a.toNat - v.toNat + (256 - c)) % 256) u ∧
      u.flag .v = over8 (a.toInt - v.toInt - c) ∧
      u.flag .c = decide (a.toNat < v.toNat + c) := by
  have hflag := State.flag_congr hcc
  rw [subtraction_eq] at hflag
  refine ⟨NZ8_of_byte (sub8_toNat a v (carryIn withCarry s)) ?_ ?_, ?_, ?_⟩
  · simp [hflag, sub8_n]
  · simp [hflag, sub8_z]
  · simp [hflag, sub8_v, over8]
  · simp [hflag, sub8_c]

end ByteSums

theorem exec_byteAddition {row : CarryRow} (hrow : row ∈ byteAdditions) : row.2.1 ≠ .cc ∧
    ∀ src s, exec (row.1 src) s = operate8 .other row.2.1 src (addition row.2.2) s := by
  simp only [byteAdditions, List.mem_cons, List.not_mem_nil, or_false] at hrow
  rcases hrow with rfl | rfl | rfl | rfl <;> exact ⟨by decide, fun _ _ => rfl⟩

theorem exec_byteSubtraction {row : CarryRow} (hrow : row ∈ byteSubtractions) : row.2.1 ≠ .cc ∧
    ∀ src s, exec (row.1 src) s = operate8 .other row.2.1 src (subtraction row.2.2) s := by
  simp only [byteSubtractions, List.mem_cons, List.not_mem_nil, or_false] at hrow
  rcases hrow with rfl | rfl | rfl | rfl <;> exact ⟨by decide, fun _ _ => rfl⟩

/-- The carry taken in after an address was computed is the one before. -/
theorem Addressed.carryIn {upd : List RegName} {s t : State} (h : Addressed upd s t) (withCarry : Bool) :
    carryIn withCarry t = carryIn withCarry s := by
  rw [Machine.carryIn, h.flag, Machine.carryIn]

/-- Settles O32: each row is an `addition` of its register, and `add8` gives its result and flags as numbers. -/
theorem addAndAdcGiveSum : Obligations.AddAndAdcGiveSum := by
  intro row hrow src s t v hsrc
  obtain ⟨hr, hi⟩ := exec_byteAddition hrow
  have hc := (source8_state hsrc).carryIn row.2.2
  rw [← bit01_carryIn, ← hc]
  refine operate8_completes hr (hi src s) hsrc (addition_only _ _ v t) (addition_keeps _ _ v t)
    fun u hval hcc => ⟨?_, addition_flags hcc⟩
  rw [hval, addition_eq]
  exact add8_r _ v _

/-- Settles O33: each row is a `subtraction`, of which CMPA and CMPB take the flags alone. -/
theorem subSbcCmpGiveDifference : Obligations.SubSbcCmpGiveDifference := by
  refine ⟨fun row hrow src s t v hsrc => ?difference, fun row hrow src s t v hsrc => ?compare⟩
  case difference =>
    obtain ⟨hr, hi⟩ := exec_byteSubtraction hrow
    have hc := (source8_state hsrc).carryIn row.2.2
    rw [← bit01_carryIn, ← hc]
    refine operate8_completes hr (hi src s) hsrc (subtraction_only _ _ v t)
      (subtraction_keeps _ _ v t) fun u hval hcc => ⟨?_, subtraction_flags hcc⟩
    rw [hval, subtraction_eq]
    exact sub8_toNat _ v _
  case compare =>
    have hi : exec (row.1 src) s = compare8 row.2 src (subtraction false) s := by
      simp only [List.mem_cons, List.not_mem_nil, or_false] at hrow
      rcases hrow with rfl | rfl <;> rfl
    refine compare8_completes hi hsrc (subtraction_only _ _ v t) (subtraction_keeps _ _ v t)
      fun u hcc => ?_
    simpa [carryIn, bit01] using subtraction_flags hcc

end Sys2Proof.Machine

/-! # D, decimal adjust and the accumulators (R202 to R232, R263 to R279) -/

namespace Sys2Proof.Machine

open Sys2Proof.Claims

/-! ## ADDD and SUBD (R213, R232) -/

/-- The flags of a 16-bit sum, as numbers (R202), in any state that has taken over the CC with them; H is open, and
unchanged under `FLAG_POLICY = motorola` (R205). -/
theorem addWord_flags {a v : Word} {s u : State} (hcc : u.cc = (addWord a v s).2.cc) :
    NZ16 ((a.toNat + v.toNat) % 65536) u ∧ u.flag .v = over16 (a.toInt + v.toInt) ∧
      u.flag .c = decide (65536 ≤ a.toNat + v.toNat) ∧
      (s.policies.flags = .motorola → u.flag .h = s.flag .h) := by
  have hflag := State.flag_congr hcc
  refine ⟨NZ16_of_word (add16_r a v) ?_ ?_, ?_, ?_, fun hmot => ?_⟩
  · simp [hflag, addWord, add16_n]
  · simp [hflag, addWord, add16_z]
  · simp [hflag, addWord, add16_v, over16]
  · simp [hflag, addWord, add16_c]
  · simp [hflag, addWord, hmot, Config.FlagPolicy.draws, Config.OpenFlag.unchangedByMotorola]

theorem sub16_toNat (a v : Word) : (sub16 a v).r.toNat = (65536 + a.toNat - v.toNat) % 65536 := by
  have hr := sub16_r a v
  have hv := v.isLt
  omega

/-- Settles O34: both are `operate16` of D, and `add16` and `sub16` give result and flags as numbers. -/
theorem adddSubdGiveDouble : Obligations.AdddSubdGiveDouble := by
  intro src s t v hsrc
  have haddr := source16_state hsrc
  simp only [← State.d_toNat]
  refine ⟨?sum, ?difference⟩
  case sum =>
    refine operateD_completes rfl hsrc (addWord_only s.d v t) (addWord_keeps s.d v t) fun u hval hcc =>
      ⟨hval ▸ add16_r s.d v, ?_⟩
    rw [← haddr.policies, ← haddr.flag]
    exact addWord_flags hcc
  case difference =>
    refine operateD_completes rfl hsrc (subtractWord_only s.d v t) (subtractWord_keeps s.d v t) fun u hval hcc =>
      ⟨hval ▸ sub16_toNat s.d v, ?_⟩
    simp only [NZ16, State.flag_congr hcc]
    exact subtractWord_flags s.d v t

/-! ## MUL (R226) -/

theorem setFlag_changes (s : State) (g : Flag) (q : Bool) : ChangesOnly [] [g] [] s (s.setFlag g q) :=
  (FlagsOnly.setFlag s g q).changes [] [] fun k hk => by simp_all

theorem bit_seven (p : Word) : p.getLsbD 7 = decide (p.toNat / 128 % 2 = 1) := by
  rw [BitVec.getLsbD, Nat.testBit_eq_decide_div_mod_eq]

/-- Settles O36: D is loaded with `mul8`, which is the product, and Z and C are written after it. -/
theorem mulGivesUnsignedProduct : Obligations.MulGivesUnsignedProduct := by
  intro s
  have hframe : ChangesOnly [.a, .b] [.z, .c] [] s (((s.set16 .d (mul8 s.a s.b)).setFlag .z
      (isZero (mul8 s.a s.b))).setFlag .c ((mul8 s.a s.b).getLsbD 7)) :=
    ((ChangesOnly.set16 s .d _).trans (setFlag_changes _ .z _)).trans (setFlag_changes _ .c _)
  refine completesWith_of_addressed (.refl [] s) rfl hframe rfl ⟨?product, ?zero, ?carry⟩
  case product =>
    rw [← mul8_toNat, ← be16_toNat]
    exact congrArg BitVec.toNat (be16_hi8_lo8 _)
  case zero => simp [isZero_iff, mul8_toNat]
  case carry => rw [← mul8_toNat, State.flag_setFlag, if_pos rfl, bit_seven]

/-! ## SEX and ABX (R230, R210) -/

/-- The byte that extends the sign (R230). -/
theorem be16_sign : ∀ b : Byte, be16 (if b.getLsbD 7 then 0xFF else 0x00) b = sext8 b := by decide

theorem isNeg_sext8 (b : Byte) : isNeg (sext8 b) = decide (b.toInt < 0) := by
  rw [isNeg, BitVec.msb_eq_toInt, sext8_toInt]

theorem isZero_sext8 (b : Byte) : isZero (sext8 b) = decide (b = 0) := by
  rw [isZero, Bool.eq_iff_iff, beq_iff_eq, decide_eq_true_iff, ← BitVec.toInt_inj, sext8_toInt, ← BitVec.toInt_inj]
  rfl

theorem setNZ_changes {w : Nat} (s : State) (v : BitVec w) : ChangesOnly [] [.n, .z] [] s (s.setNZ v) :=
  (FlagsOnly.setNZ s v).changes [] [] fun g hg => by simp_all

/-- Settles O37: `be16` of the sign byte and B is B sign-extended; ABX adds B extended by zeros. -/
theorem sexAndAbxExtendB : Obligations.SexAndAbxExtendB := by
  intro s
  refine ⟨?sex, ?abx⟩
  case sex =>
    have hexec : exec .sex s =
        .next ((s.set8 .a (if s.b.getLsbD 7 then 0xFF else 0x00)).setNZ (sext8 s.b)) := by
      rw [← be16_sign]
      rfl
    refine completesWith_of_addressed (.refl [] s) hexec
      (((ChangesOnly.refl [] [] [] s).andSet8 (r := .a) (by decide) _).trans (setNZ_changes _ _)) rfl ⟨?_, ?_, ?_⟩
    · exact (congrArg BitVec.toInt (be16_sign s.b)).trans (sext8_toInt s.b)
    · simp [isNeg_sext8]
    · simp [isZero_sext8]
  case abx =>
    refine completesWith_of_addressed (.refl [] s) rfl (ChangesOnly.set16 s .x (s.x + zext8 s.b)) rfl ?_
    rw [← zext8_toNat]
    exact BitVec.toNat_add _ _

/-! ## DAA (R221) -/

theorem daaLow_eq (a : Byte) (h : Bool) : daaLow a h = if h = true ∨ 9 < a.toNat % 16 then 6 else 0 := by
  simp [daaLow]

theorem daaHigh_eq (a : Byte) (c : Bool) : daaHigh a c =
    if c = true ∨ 9 < a.toNat / 16 ∨ (8 < a.toNat / 16 ∧ 9 < a.toNat % 16) then 96 else 0 := by
  simp [daaHigh, or_assoc]

/-- The flags of DAA, in any state that has taken over the CC with them; V is open. -/
theorem decimalAdjust_flags {a : Byte} {s u : State} (hcc : u.cc = (decimalAdjust a s).2.cc) :
    NZ8 (daaSum a (s.flag .h) (s.flag .c) % 256) u ∧
      u.flag .c = (s.flag .c || decide (255 < daaSum a (s.flag .h) (s.flag .c))) := by
  have hflag := State.flag_congr hcc
  refine ⟨NZ8_of_byte (BitVec.toNat_ofNat _ 8) ?_ ?_, ?_⟩
  · simp [hflag, decimalAdjust]
  · simp [hflag, decimalAdjust]
  · simp [hflag, decimalAdjust]

/-- Settles O38: DAA is `decimalAdjust` of A, whose corrections are those of R221. -/
theorem daaAppliesCorrections : Obligations.DaaAppliesCorrections := by
  intro s low high lo hi sum
  have hsum : sum = daaSum s.a (s.flag .h) (s.flag .c) := by
    rw [daaSum, daaLow_eq, daaHigh_eq]
  rw [hsum]
  exact modifyReg_completes (r := .a) (by decide) rfl (decimalAdjust_only s.a s) (decimalAdjust_keeps s.a s)
    fun u hval hcc => ⟨(congrArg BitVec.toNat hval).trans (BitVec.toNat_ofNat _ 8), decimalAdjust_flags hcc⟩

/-! ## Decimal addition (R211, R212, R221) -/

theorem zext8_injective {b c : Byte} (h : zext8 b = zext8 c) : b = c := by
  apply BitVec.eq_of_toNat_eq
  rw [← zext8_toNat, h, zext8_toNat]

section DecimalSum
variable {n l a : Nat} (hn : n ≤ 18) (hl : l ≤ 19) (ha : a = (16 * n + l) % 256)
include hl ha

/-! `n` is the sum of the high digits, `l` that of the low digits and the carry-in, `a` what the addition leaves
in A. -/

/-- H, or a low digit above 9, shows that the low digits make a ten. -/
theorem low_correction_iff : (16 ≤ l ∨ 9 < a % 16) ↔ 10 ≤ l := by omega

include hn

/-- C, or the digits of A, show that the sum makes a hundred. -/
theorem high_correction_iff :
    (256 ≤ 16 * n + l ∨ 9 < a / 16 ∨ (8 < a / 16 ∧ 9 < a % 16)) ↔ 100 ≤ 10 * n + l := by omega

/-- With the two corrections the binary sum is the decimal one: six for a ten, sixty (hexadecimal) for a hundred. -/
theorem corrected_sum :
    (a + (if 100 ≤ 10 * n + l then 96 else 0) + if 10 ≤ l then 6 else 0) % 256 =
        16 * ((10 * n + l) / 10 % 10) + (10 * n + l) % 10 ∧
      ((256 ≤ 16 * n + l ∨ 255 < a + (if 100 ≤ 10 * n + l then 96 else 0) + if 10 ≤ l then 6 else 0) ↔
        100 ≤ 10 * n + l) := by
  split <;> split <;> omega

end DecimalSum

/-- A frame that does not list B keeps it. -/
theorem ChangesOnly.b_eq {regs : List RegName} {flags : List Flag} {bytes : List Word} {s t : State}
    (h : ChangesOnly regs flags bytes s t) (hb : .b ∉ regs) : t.b = s.b :=
  zext8_injective (h.regs .b hb)

/-- ADDA or ADCA of packed-BCD bytes: A, H and C by the sums of the digits (O32). -/
theorem packed_addition {s : State} {p q p' q' : Nat} (carry : Bool) (hq : q < 10) (hp' : p' < 10) (hq' : q' < 10)
    (hdigits : s.a.toNat = 16 * p + q) :
    let l := q + q' + if carry = true ∧ s.flag .c = true then 1 else 0
    let operand : Src8 := .imm (BitVec.ofNat 8 (16 * p' + q'))
    ∃ t, exec (if carry then .adca operand else .adda operand) s = .next t ∧
      t.a.toNat = (16 * (p + p') + l) % 256 ∧ t.flag .h = decide (16 ≤ l) ∧
      t.flag .c = decide (256 ≤ 16 * (p + p') + l) ∧ t.b = s.b := by
  intro l operand
  let row : CarryRow := (if carry then .adca else .adda, .a, carry)
  have hrow : row ∈ byteAdditions := by cases carry <;> simp [row, byteAdditions]
  obtain ⟨t, hexec, -, hframe, -, ha, -, hh, -, hc⟩ := addAndAdcGiveSum row hrow operand s s _ rfl
  simp only [row, State.get8, hdigits, BitVec.toNat_ofNat] at ha hh hc
  refine ⟨t, by cases carry <;> exact hexec, ?_, ?_, ?_,
    hframe.b_eq (by simp [row, operand, updates8, Reg8.names])⟩
  · rw [ha]
    omega
  · rw [hh, decide_eq_decide]
    omega
  · rw [hc, decide_eq_decide]
    omega

/-- DAA makes the sum of two packed-BCD bytes decimal (O38): `n` and `l` are the sums of their digits. -/
theorem daa_completes_decimal {t : State} {n l : Nat} (hn : n ≤ 18) (hl : l ≤ 19)
    (ha : t.a.toNat = (16 * n + l) % 256) (hh : t.flag .h = decide (16 ≤ l))
    (hc : t.flag .c = decide (256 ≤ 16 * n + l)) :
    let total := 10 * n + l
    ∃ u, exec .daa t = .next u ∧ u.a.toNat = 16 * (total / 10 % 10) + total % 10 ∧
      u.flag .c = decide (100 ≤ total) ∧ u.b = t.b := by
  obtain ⟨u, hexec, -, hframe, -, hua, -, huc⟩ := daaAppliesCorrections t
  simp only [hh, hc, decide_eq_true_eq, low_correction_iff hl ha, high_correction_iff hn hl ha] at hua huc
  obtain ⟨hsum, hhundred⟩ := corrected_sum hn hl ha
  refine ⟨u, hexec, hua.trans hsum, ?_, hframe.b_eq (by decide)⟩
  rw [huc, ← Bool.decide_or, decide_eq_decide, hhundred]

/-- Settles O39: the addition by the sums of the digits, and DAA after it. -/
theorem addThenDaaIsDecimalSum : Obligations.AddThenDaaIsDecimalSum := by
  intro s p q p' q' carry hp hq hp' hq' hdigits total operand
  obtain ⟨t, hadd, hta, hth, htc, htb⟩ := packed_addition carry hq hp' hq' hdigits
  have hl : (q + q' + if carry = true ∧ s.flag .c = true then 1 else 0) ≤ 19 := by split <;> omega
  obtain ⟨u, hdaa, hua, huc, hub⟩ := daa_completes_decimal (n := p + p') (by omega) hl hta hth htc
  have htotal : total = 10 * (p + p') + (q + q' + if carry = true ∧ s.flag .c = true then 1 else 0) := by
    simp only [total]
    omega
  rw [htotal]
  exact ⟨t, u, hadd, hdaa, hua, huc, hub.trans htb⟩

/-! ## Shifts, rotates, NEG, COM, INC, DEC of an accumulator (R222 to R228, R262 to R279) -/

/-- An effect's flags are read from CC alone. -/
theorem Effect.holds_congr {e : Effect} {s w u : State} (h : e.holds s w) (hcc : u.cc = w.cc) : e.holds s u :=
  ⟨fun k hk => (State.flag_congr hcc k.1).trans (h.1 k hk),
    fun g hg hmot => (State.flag_congr hcc g).trans (h.2 g hg hmot)⟩

theorem Implements.modifyReg_completes {op : Byte → State → Byte × State} {effect : Nat → Bool → Effect}
    (hop : Implements op effect) {i : Instr} {s : State} {r : Reg8} (hr : r ≠ .cc)
    (hi : exec i s = modifyReg r op s) :
    Completes i s s false [] r.names (effect (s.get8 r).toNat (s.flag .c)).flags [] fun u =>
      (u.get8 r).toNat = (effect (s.get8 r).toNat (s.flag .c)).result ∧
        (effect (s.get8 r).toNat (s.flag .c)).holds s u :=
  Machine.modifyReg_completes hr hi (hop.only _ s) (hop.keeps _ s) fun _ hval hcc =>
    ⟨(congrArg BitVec.toNat hval).trans (hop.result _ s), Effect.holds_congr (hop.holds _ s) hcc⟩

/-- Settles O42: every row runs an operation with its effect on the accumulator. -/
theorem accumulatorShiftsAndUnaries : Obligations.AccumulatorShiftsAndUnaries := by
  intro row hrow s
  obtain ⟨op, hop, -, haccA, haccB⟩ := unaryRow_implements hrow
  exact ⟨hop.modifyReg_completes (r := .a) (by decide) (haccA s),
    hop.modifyReg_completes (r := .b) (by decide) (haccB s)⟩

/-! ## CLR (R214, R215) -/

/-- The flags CLR leaves. -/
def State.flagsOfZero (s : State) : State := (s.setNZ0 (0#8)).setFlag .c false

section Clear
variable (s : State)

theorem flagsOfZero_changes : ChangesOnly [] [.n, .z, .v, .c] [] s s.flagsOfZero :=
  (setNZ0_changes s _).trans (setFlag_changes _ .c false)

/-- The flags of zero, in any state that has taken over the CC with them. -/
theorem flags_of_flagsOfZero {u : State} (hcc : u.cc = s.flagsOfZero.cc) :
    u.flag .n = false ∧ u.flag .z = true ∧ u.flag .v = false ∧ u.flag .c = false := by
  simp [State.flag_congr hcc, State.flagsOfZero, isNeg_byte, isZero_iff]

/-- CLRA and CLRB. -/
theorem clear_accumulator {i : Instr} {r : Reg8} (hr : r ≠ .cc) (hi : exec i s = .next (s.flagsOfZero.set8 r 0)) :
    Completes i s s false [] r.names [.n, .z, .v, .c] [] fun u => u.get8 r = 0 ∧
      u.flag .n = false ∧ u.flag .z = true ∧ u.flag .v = false ∧ u.flag .c = false :=
  completesWith_of_addressed (.refl [] s) hi ((flagsOfZero_changes s).andSet8 hr 0) (State.set8_deviceLog _ r _)
    ⟨State.get8_set8 _ r 0, flags_of_flagsOfZero s (State.set8_cc _ _ hr)⟩

theorem execClr_eq {m : Mem} {t : State} {ea : Word} (haddr : effectiveAddress m s = .next (ea, t)) :
    exec (.clr m) s = write8 .other ea 0 t.flagsOfZero := by
  simp [exec, execClr, haddr, State.flagsOfZero]

end Clear

/-- Settles O44: zero is written where CLR writes, and the flags of zero with it. -/
theorem clrWritesZero : Obligations.ClrWritesZero := by
  intro s
  refine ⟨clear_accumulator s (r := .a) (by decide) rfl, clear_accumulator s (r := .b) (by decide) rfl,
    fun m t ea haddr => ⟨fun hea => ?ram, fun d hd => ?device⟩⟩
  case ram =>
    have hexec : exec (.clr m) s = .next (t.flagsOfZero.poke ea 0) :=
      (execClr_eq s haddr).trans (write8_of_ram .other 0 hea)
    exact completesWith_of_addressed (effectiveAddress_state haddr) hexec ((flagsOfZero_changes t).andPoke ea 0) rfl
      ⟨State.byteAt_poke_same _ ea 0, flags_of_flagsOfZero t rfl⟩
  case device =>
    have hexec : exec (.clr m) s = .next (t.flagsOfZero.toDevice d ea (some 0)) :=
      (execClr_eq s haddr).trans (write8_of_serves 0 hd)
    exact completesWith_of_addressed (effectiveAddress_state haddr) hexec ((flagsOfZero_changes t).andReach d ea _)
      rfl (flags_of_flagsOfZero t rfl)

end Sys2Proof.Machine

/-! # Logic on an accumulator and on CC (R259 to R261, R266, R269, R274, R275) -/

namespace Sys2Proof.Machine

open Sys2Proof.Claims

/-! ## N and Z of a byte, by its bits (R204) -/

theorem isNeg_eq_bit_seven (v : Byte) : isNeg v = v.getLsbD 7 :=
  BitVec.msb_eq_getLsbD_last v

theorem isZero_iff_bits {w : Nat} (v : BitVec w) : isZero v = true ↔ ∀ k < w, v.getLsbD k = false := by
  rw [isZero, beq_iff_eq]
  refine ⟨fun hv k _ => ?_, fun hbits => BitVec.eq_of_getLsbD_eq fun k hk => ?_⟩
  · simp [hv]
  · simpa using hbits k hk

/-! ## AND, OR, EOR and BIT (R260, R266, R269, R274) -/

/-- `op` gives a byte of which each bit is `bit` of the operands' bits, and the flags of that byte (R259). -/
structure ActsBitByBit (op : Byte → Byte → State → Byte × State) (bit : Bool → Bool → Bool) : Prop where
  bits : ∀ a v s, ∀ k < 8, (op a v s).1.getLsbD k = bit (a.getLsbD k) (v.getLsbD k)
  flags : ∀ a v s, (op a v s).2 = s.setNZ0 (op a v s).1

theorem andByte_bitByBit : ActsBitByBit andByte (fun p q => p && q) where
  bits _ _ _ _ _ := BitVec.getLsbD_and
  flags _ _ _ := rfl

theorem orByte_bitByBit : ActsBitByBit orByte (fun p q => p || q) where
  bits _ _ _ _ _ := BitVec.getLsbD_or
  flags _ _ _ := rfl

theorem xorByte_bitByBit : ActsBitByBit xorByte (fun p q => p != q) where
  bits _ _ _ _ _ := BitVec.getLsbD_xor
  flags _ _ _ := rfl

section BitByBit
variable {op : Byte → Byte → State → Byte × State} {bit : Bool → Bool → Bool} {i : Instr} {src : Src8} {r : Reg8}
  {s t : State} {v : Byte}

theorem ActsBitByBit.only (hop : ActsBitByBit op bit) (a v : Byte) (s : State) : FlagsOnly s (op a v s).2 :=
  hop.flags a v s ▸ .setNZ0 s _

theorem ActsBitByBit.keeps (hop : ActsBitByBit op bit) (a v : Byte) (s : State) :
    ∀ g, g ∉ [.n, .z, .v] → (op a v s).2.flag g = s.flag g :=
  hop.flags a v s ▸ (setNZ0_changes s _).flags

/-- AND, OR, EOR: the register takes the byte, CC its flags. -/
theorem ActsBitByBit.operate8_completes (hop : ActsBitByBit op bit) (hr : r ≠ .cc)
    (hi : exec i s = operate8 .other r src op s) (hsrc : source8 .other src s = .next (v, t)) :
    Completes i s t false (updates8 src) r.names [.n, .z, .v] [] fun u =>
      (∀ k < 8, (u.get8 r).getLsbD k = bit ((s.get8 r).getLsbD k) (v.getLsbD k)) ∧
        NZ8 (u.get8 r).toNat u ∧ u.flag .v = false := by
  refine Machine.operate8_completes hr hi hsrc (hop.only _ v t) (hop.keeps _ v t) fun u hval hcc => ?_
  rw [hval]
  rw [hop.flags] at hcc
  exact ⟨hop.bits _ v t, NZ8_of_setNZ0 t hcc⟩

/-- BIT: the byte is only tested. -/
theorem ActsBitByBit.compare8_completes (hop : ActsBitByBit op bit) (hi : exec i s = compare8 r src op s)
    (hsrc : source8 .other src s = .next (v, t)) :
    Completes i s t false (updates8 src) [] [.n, .z, .v] [] fun u =>
      u.flag .n = bit ((s.get8 r).getLsbD 7) (v.getLsbD 7) ∧
        (u.flag .z = true ↔ ∀ k < 8, bit ((s.get8 r).getLsbD k) (v.getLsbD k) = false) ∧ u.flag .v = false := by
  refine Machine.compare8_completes hi hsrc (hop.only _ v t) (hop.keeps _ v t) fun u hcc => ?_
  have hbits := hop.bits (s.get8 r) v t
  rw [hop.flags] at hcc
  simp only [State.flag_congr hcc]
  refine ⟨?negative, ?zero, by simp⟩
  case negative =>
    rw [← hbits 7 (by decide), ← isNeg_eq_bit_seven]
    simp
  case zero =>
    have hzero : isZero (op (s.get8 r) v t).1 = true ↔
        ∀ k < 8, bit ((s.get8 r).getLsbD k) (v.getLsbD k) = false :=
      (isZero_iff_bits _).trans (forall₂_congr fun k hk => by rw [hbits k hk])
    simpa using hzero

end BitByBit

theorem exec_byteLogic {row : (Src8 → Instr) × Reg8 × (Bool → Bool → Bool)} (hrow : row ∈ byteLogic) :
    row.2.1 ≠ .cc ∧ ∃ op, ActsBitByBit op row.2.2 ∧
      ∀ src s, exec (row.1 src) s = operate8 .other row.2.1 src op s := by
  simp only [byteLogic, List.mem_cons, List.not_mem_nil, or_false] at hrow
  rcases hrow with rfl | rfl | rfl | rfl | rfl | rfl
  case inl | inr.inl => exact ⟨by decide, andByte, andByte_bitByBit, fun _ _ => rfl⟩
  case inr.inr.inl | inr.inr.inr.inl => exact ⟨by decide, orByte, orByte_bitByBit, fun _ _ => rfl⟩
  all_goals exact ⟨by decide, xorByte, xorByte_bitByBit, fun _ _ => rfl⟩

/-- Settles O40: each row runs an operation that acts bit by bit, and BIT runs that of AND for its flags alone. -/
theorem logicActsBitByBit : Obligations.LogicActsBitByBit := by
  refine ⟨fun row hrow src s t v hsrc => ?operate, fun row hrow src s t v hsrc => ?test⟩
  case operate =>
    obtain ⟨hr, op, hop, hi⟩ := exec_byteLogic hrow
    exact hop.operate8_completes hr (hi src s) hsrc
  case test =>
    have hi : exec (row.1 src) s = compare8 row.2 src andByte s := by
      simp only [List.mem_cons, List.not_mem_nil, or_false] at hrow
      rcases hrow with rfl | rfl <;> rfl
    exact andByte_bitByBit.compare8_completes hi hsrc

/-! ## ANDCC and ORCC (R261, R275) -/

/-- A flag is its bit of CC (R27). -/
theorem State.flag_eq_bitOf (s : State) (g : Flag) : s.flag g = s.cc.getLsbD (bitOf g) := by
  cases g <;> rfl

/-- An instruction that loads CC: every flag is the new byte's bit, and nothing else changes. -/
theorem setCc_completes {i : Instr} {s : State} {v : Byte} (hi : exec i s = .next (s.set8 .cc v)) :
    Completes i s s false [] [] allFlags [] fun u => ∀ g, u.flag g = v.getLsbD (bitOf g) :=
  completesWith_of_addressed (.refl [] s) hi (.set8 s .cc v) rfl (State.flag_eq_bitOf _)

/-- Settles O41: CC is loaded with the AND or OR of the two bytes, whose bits are those of the flags and of `n`. -/
theorem andccOrccActOnEveryFlag : Obligations.AndccOrccActOnEveryFlag := by
  intro n s
  refine ⟨CompletesWith.imp (setCc_completes (v := s.cc &&& n) rfl) fun u hu g => ?and,
    CompletesWith.imp (setCc_completes (v := s.cc ||| n) rfl) fun u hu g => ?or⟩
  case and => rw [hu, BitVec.getLsbD_and, ← State.flag_eq_bitOf]
  case or => rw [hu, BitVec.getLsbD_or, ← State.flag_eq_bitOf]

end Sys2Proof.Machine

/-! # Loads (R300 to R304) -/

namespace Sys2Proof.Machine

open Sys2Proof.Claims

section Loads
variable {i : Instr} {s t : State}

/-- A byte loaded: its flags, then the register. -/
theorem load8_completes {r : Reg8} {src : Src8} {v : Byte} (hr : r ≠ .cc)
    (hi : exec i s = operate8 .plain r src loadByte s) (hsrc : source8 .plain src s = .next (v, t)) :
    Completes i s t false (updates8 src) r.names [.n, .z, .v] [] fun u =>
      u.get8 r = v ∧ NZ8 v.toNat u ∧ u.flag .v = false := by
  have hexec : exec i s = .next ((t.setNZ0 v).set8 r v) := by
    rw [hi, operate8, hsrc]
    rfl
  exact completesWith_of_addressed (source8_state hsrc) hexec ((setNZ0_changes t v).andSet8 hr v) (by simp)
    ⟨State.get8_set8 _ r v, NZ8_of_setNZ0 t (State.set8_cc _ v hr)⟩

theorem State.get16_armedIf (arm : Bool) (s : State) (r : Reg16) : (armedIf arm s).get16 r = s.get16 r := by
  cases arm <;> rfl

theorem armedIf_cc (arm : Bool) (s : State) : (armedIf arm s).cc = s.cc := by
  cases arm <;> rfl

/-- A word loaded: its flags, then the register, then NMI armed, if at all. -/
theorem load16_completes {r : Reg16} {src : Src16} {v : Word} {arm : Bool}
    (hsrc : source16 .plain src s = .next (v, t))
    (hexec : exec i s = .next (armedIf arm ((t.setNZ0 v).set16 r v))) :
    Completes i s t arm (updates16 src) r.names [.n, .z, .v] [] fun u =>
      u.get16 r = v ∧ NZ16 v.toNat u ∧ u.flag .v = false := by
  have hframe : ChangesOnly r.names [.n, .z, .v] [] t ((t.setNZ0 v).set16 r v) :=
    ((setNZ0_changes t v).trans (.set16 _ r v)).mono (by simp) (by simp) (by simp)
  have hcc : (armedIf arm ((t.setNZ0 v).set16 r v)).cc = (t.setNZ0 v).cc := by
    rw [armedIf_cc, State.set16_cc]
  refine completesWith_of_armed (source16_state hsrc) hexec hframe (by simp) ⟨?_, NZ16_of_setNZ0 t hcc⟩
  rw [State.get16_armedIf, State.get16_set16]

/-- What each row does with the word; LDS alone may arm NMI (R404). -/
theorem exec_wordLoad {row : (Src16 → Instr) × Reg16 × Bool} (hrow : row ∈ wordLoads) {src : Src16} {v : Word}
    (hsrc : source16 .plain src s = .next (v, t)) :
    exec (row.1 src) s =
      .next (armedIf (row.2.2 && s.policies.nmiArm.lds) ((t.setNZ0 v).set16 row.2.1 v)) := by
  have hload (r : Reg16) : operate16 .plain r src loadWord s = .next ((t.setNZ0 v).set16 r v) := by
    rw [operate16, hsrc]
    rfl
  simp only [wordLoads, List.mem_cons, List.not_mem_nil, or_false] at hrow
  rcases hrow with rfl | rfl | rfl | rfl | rfl
  case inr.inl =>
    rw [← (source16_state hsrc).policies]
    show execLds src s = _
    simp [execLds, hload, armNmi_eq_armedIf]
  all_goals exact hload _

end Loads

/-- Settles O46: the operand is read, its flags are written, then the register; S loaded by LDS arms NMI as the
policies say. -/
theorem loadsGiveOperand : Obligations.LoadsGiveOperand := by
  refine ⟨fun row hrow src s t v hsrc => ?bytes, fun row hrow src s t v hsrc => ?words⟩
  case bytes =>
    simp only [List.mem_cons, List.not_mem_nil, or_false] at hrow
    rcases hrow with rfl | rfl <;> exact load8_completes (by decide) rfl hsrc
  case words =>
    exact CompletesWith.imp (load16_completes hsrc (exec_wordLoad hrow hsrc))
      fun u ⟨hval, hflags⟩ => ⟨congrArg BitVec.toNat hval, hflags⟩

end Sys2Proof.Machine

/-! # TFR and EXG (R311, R312) -/

namespace Sys2Proof.Machine

open Sys2Proof.Claims

/-! ## Two registers of one width, swapped -/

section Registers
variable (s : State)

/-- No two 16-bit registers share storage: D is A and B, the others stand alone (R22, R313). -/
theorem State.get16_set16_eq_ite (q r : Reg16) (v : Word) :
    (s.set16 q v).get16 r = if r = q then v else s.get16 r := by
  cases q <;> cases r <;> simp [State.get16, State.set16, State.d]

/-- Nor do two 8-bit registers (R313). -/
theorem State.get8_set8_eq_ite (q r : Reg8) (v : Byte) : (s.set8 q v).get8 r = if r = q then v else s.get8 r := by
  cases q <;> cases r <;> rfl

/-- Two 16-bit registers, each written with what the other held. -/
def State.swap16 (r1 r2 : Reg16) : State := (s.set16 r1 (s.get16 r2)).set16 r2 (s.get16 r1)

/-- Two 8-bit registers, each written with what the other held. -/
def State.swap8 (r1 r2 : Reg8) : State := (s.set8 r1 (s.get8 r2)).set8 r2 (s.get8 r1)

theorem State.get16_swap16_left (r1 r2 : Reg16) : (s.swap16 r1 r2).get16 r1 = s.get16 r2 := by
  rw [swap16, get16_set16_eq_ite, get16_set16]
  split
  next heq => rw [heq]
  next => rfl

theorem State.get8_swap8_left (r1 r2 : Reg8) : (s.swap8 r1 r2).get8 r1 = s.get8 r2 := by
  rw [swap8, get8_set8_eq_ite, get8_set8]
  split
  next heq => rw [heq]
  next => rfl

theorem ChangesOnly.swap16 (r1 r2 : Reg16) : ChangesOnly (r1.names ++ r2.names) [] [] s (s.swap16 r1 r2) :=
  (ChangesOnly.set16 s r1 _).trans (.set16 _ r2 _)

theorem ChangesOnly.swap8 (r1 r2 : Reg8) :
    ChangesOnly (r1.names ++ r2.names) (if r1 = .cc ∨ r2 = .cc then allFlags else []) [] s (s.swap8 r1 r2) := by
  refine ((ChangesOnly.set8 s r1 _).trans (.set8 _ r2 _)).mono (by simp) (fun g hg => ?_) (by simp)
  split
  next => cases g <;> simp [allFlags]
  next h =>
    obtain ⟨h1, h2⟩ := not_or.1 h
    simp [h1, h2] at hg

end Registers

/-! ## TFR -/

section Transfer
variable {r1 : AnyReg} {r2 : Reg16} {s : State} {v : Word} {n : Nat}

/-- Free values taken are no change that a frame sees. -/
theorem ChangesOnly.draw (s : State) (n : Nat) : ChangesOnly [] [] [] s { s with draws := n } :=
  ⟨fun r _ => by cases r <;> rfl, fun _ _ => rfl, fun _ _ => rfl, rfl, rfl, rfl, rfl, rfl, rfl⟩

/-- Only a destination S arms NMI (R404). -/
theorem execTfr_arms (r : Reg16) (t : State) :
    execTfr.arms r t = armedIf (decide (r = .s) && t.policies.nmiArm.tfr) t := by
  by_cases h : r = .s <;> simp [execTfr.arms, h, armNmi_eq_armedIf, armedIf]

/-- TFR to a 16-bit register, whatever the word and the draws it took. -/
theorem transfer16_completes
    (hi : exec (.tfr r1 (.wide r2)) s = .next (execTfr.arms r2 (State.set16 r2 v { s with draws := n }))) :
    Completes (.tfr r1 (.wide r2)) s s (decide (r2 = .s) && s.policies.nmiArm.tfr) [] r2.names [] [] fun u =>
      u.get16 r2 = v := by
  rw [execTfr_arms, State.set16_policies] at hi
  refine completesWith_of_armed (.refl [] s) hi ((ChangesOnly.draw s n).trans (.set16 _ r2 v)) (by simp) ?_
  rw [State.get16_armedIf, State.get16_set16]

end Transfer

/-- Settles O49: one register is written; only S can arm NMI, and only CC holds flags. -/
theorem tfrCopiesRegister : Obligations.TfrCopiesRegister := by
  refine ⟨fun r1 r2 s => ?wide, fun r1 r2 s => ?byte, fun r1 r2 s => ?extended⟩
  case wide => exact transfer16_completes (n := s.draws) rfl
  case byte =>
    exact completesWith_of_addressed (.refl [] s) rfl (.set8 s r2 _) (by simp) (State.get8_set8 s r2 _)
  case extended => exact CompletesWith.imp (transfer16_completes (n := s.draws + 1) rfl) fun _ _ => trivial

/-! ## EXG -/

/-- The swap comes first, then S as either operand arms NMI (R404). -/
theorem exec_exchange16 (s : State) (r1 r2 : Reg16) : exec (.exg (.wide r1) (.wide r2)) s =
    .next (armedIf (decide (r1 = .s ∨ r2 = .s) && s.policies.nmiArm.exg) (s.swap16 r1 r2)) := by
  show Host.Outcome.next (if r1 = .s ∨ r2 = .s then (s.swap16 r1 r2).armNmi (·.exg) else s.swap16 r1 r2) = _
  have hpol : (s.swap16 r1 r2).policies = s.policies := (ChangesOnly.swap16 s r1 r2).policies
  by_cases h : r1 = .s ∨ r2 = .s <;> simp [h, armNmi_eq_armedIf, hpol, armedIf]

/-- Settles O50: the registers are swapped, the second written last, and NMI is armed after that. -/
theorem exgSwapsRegisters : Obligations.ExgSwapsRegisters := by
  refine ⟨fun r1 r2 s => ?wide, fun r1 r2 s => ?byte⟩
  case wide =>
    refine completesWith_of_armed (.refl [] s) (exec_exchange16 s r1 r2) (.swap16 s r1 r2)
      (by simp [State.swap16]) ?_
    rw [State.get16_armedIf, State.get16_armedIf]
    exact ⟨State.get16_swap16_left s r1 r2, State.get16_set16 _ r2 _⟩
  case byte =>
    exact completesWith_of_addressed (u := s.swap8 r1 r2) (.refl [] s) rfl (.swap8 s r1 r2) (by simp [State.swap8])
      ⟨State.get8_swap8_left s r1 r2, State.get8_set8 _ r2 _⟩

end Sys2Proof.Machine

/-! # Undefined register codes (R311 to R313) -/

namespace Sys2Proof

/-- R313's table leaves six codes without a register. -/
theorem decodeRegCode_eq_none_iff :
    ∀ code : BitVec 4, decodeRegCode code = none ↔ code.toNat ∈ [6, 7, 12, 13, 14, 15] := by decide

theorem nibbles_toNat (pb : Byte) :
    (pb.extractLsb' 4 4).toNat = pb.toNat / 16 ∧ (pb.extractLsb' 0 4).toNat = pb.toNat % 16 := by
  have := pb.isLt
  simp [BitVec.extractLsb'_toNat, Nat.shiftRight_eq_div_pow]
  omega

theorem decodeRegPair_undefinedRegisterCode {pb : Byte}
    (h : pb.toNat / 16 ∈ [6, 7, 12, 13, 14, 15] ∨ pb.toNat % 16 ∈ [6, 7, 12, 13, 14, 15]) (rest : List Byte) :
    decodeRegPair (pb :: rest) = .undefinedRegisterCode := by
  obtain ⟨hhigh, hlow⟩ := nibbles_toNat pb
  rw [← hhigh, ← hlow, ← decodeRegCode_eq_none_iff, ← decodeRegCode_eq_none_iff] at h
  rw [decodeRegPair]
  split
  next r1 r2 h1 h2 => simp [h1, h2] at h
  next => rfl
  next => rfl

/-- A transfer or exchange is undefined with its postbyte. -/
theorem decodePage_undefinedRegisterCode {page : Byte → Option Format} {op pb : Byte}
    {k : AnyReg → AnyReg → Instr} (hop : page op = some (.registerPostbyte k)) {rest : List Byte}
    (h : decodeRegPair (pb :: rest) = .undefinedRegisterCode) :
    decodePage page (op :: pb :: rest) = .undefinedRegisterCode := by
  rw [decodePage_cons hop, Format.operands, h]
  rfl

/-- R106, R111: EXG and TFR are on page 1, and a register postbyte follows them. -/
theorem page1_transfer {op : Byte} (h : op = 0x1E ∨ op = 0x1F) : ∃ k, page1 op = some (.registerPostbyte k) := by
  rcases h with rfl | rfl <;> exact ⟨_, rfl⟩

end Sys2Proof

namespace Sys2Proof.Machine

open Sys2Proof.Claims

/-- A step that runs an instruction whose first byte is not the whole of it: what the fetch makes of the second byte
decides. -/
theorem step_of_pair {s : State} {op pb : Byte} (hrun : RunsInstruction s) (hs : Holds s s.pc [op, pb])
    (hshort : decode [op] = .short) :
    step s = (fetchInstr 3 [op, pb] { s.sampled with pc := s.pc + 1#16 + 1#16 }).andThen fun p => exec p.1 p.2 := by
  obtain ⟨hb0, hs'⟩ := holds_cons.1 hs
  obtain ⟨hb1, -⟩ := holds_cons.1 hs'
  have hfetch0 := fetchInstr_of_short (s := s.sampled) (fuel := 4) (got := []) rfl hb0
  have hfetch1 := fetchInstr_of_short (s := { s.sampled with pc := s.pc + 1#16 }) (fuel := 3) hshort hb1
  rw [step_of_runsInstruction hrun, runInstr]
  exact congrArg (Result.andThen · _) (hfetch0.trans hfetch1)

theorem fetchInstr_of_undefinedRegisterCode {fuel : Nat} {got : List Byte} {s : State}
    (h : decode got = .undefinedRegisterCode) : fetchInstr fuel got s = .refused .undefinedRegisterCode := by
  rw [fetchInstr.eq_def, h]

/-- Settles O6: a pair of unequal widths is refused by the instruction, an undefined code when the postbyte has been
fetched. -/
theorem illSizedTransfersRefused : Obligations.IllSizedTransfersRefused := by
  refine ⟨fun _ _ _ => rfl, fun _ _ _ => rfl, fun _ _ _ => rfl, fun s op pb hrun hop hs hpb => ?_⟩
  obtain ⟨k, hk⟩ := page1_transfer hop
  have hpage (rest : List Byte) : decode (op :: rest) = decodePage page1 (op :: rest) := by
    rcases hop with rfl | rfl <;> rfl
  have hshort : decode [op] = .short := (hpage []).trans (decodePage_cons hk [])
  have hundef : decode [op, pb] = .undefinedRegisterCode :=
    (hpage [pb]).trans (decodePage_undefinedRegisterCode hk (decodeRegPair_undefinedRegisterCode hpb []))
  rw [step_of_pair hrun hs hshort, fetchInstr_of_undefinedRegisterCode hundef, Result.andThen_refused]

end Sys2Proof.Machine

/-! # Branches, jumps and the return (R339, R340, R360, R362, R381) -/

namespace Sys2Proof.Machine

open Sys2Proof.Claims

section Branches
variable {i : Instr} {s : State} {off : Word} {taken : Bool}

theorem branchTo_changes (off : Word) (s : State) : ChangesOnly [.pc] [] [] s (branchTo off s) :=
  .set16 s .pc (s.pc + off)

/-- What a branch does, from the answer it gives: the offset is signed, and the sum wraps (R163, R164). -/
theorem branchesBy_of_exec (hexec : exec i s = .next (if taken then branchTo off s else s)) :
    BranchesBy i off.toInt taken s := by
  cases taken with
  | true => exact ⟨branchTo off s, hexec, add_toNat_signed s.pc off, branchTo_changes off s⟩
  | false => exact ⟨s, hexec, rfl, .refl _ _ _ s⟩

/-- Each row's short and long form answer by the row's condition (R340); the short offset is extended by its sign. -/
theorem exec_branchRow {row : BranchRow} (hrow : row ∈ branchRows) (s : State) :
    let taken := row.taken (s.flag .n) (s.flag .z) (s.flag .v) (s.flag .c)
    (∀ off : Byte, exec (row.short off) s = .next (if taken then branchTo (sext8 off) s else s)) ∧
      ∀ off : Word, exec (row.long off) s = .next (if taken then branchTo off s else s) := by
  simp only [branchRows, List.mem_cons, List.not_mem_nil, or_false] at hrow
  rcases hrow with rfl | rfl | rfl | rfl | rfl | rfl | rfl | rfl | rfl | rfl | rfl | rfl | rfl | rfl | rfl | rfl |
    rfl | rfl
  all_goals exact ⟨fun _ => rfl, fun _ => rfl⟩

end Branches

/-- Settles O53: a branch moves PC by its offset where its row's condition holds, and otherwise leaves the state, as
NOP does. -/
theorem branchesFollowConditions : Obligations.BranchesFollowConditions := by
  refine ⟨fun _ => rfl, fun row hrow s => ?_⟩
  obtain ⟨hshort, hlong⟩ := exec_branchRow hrow s
  refine ⟨fun off => ?short, fun off => branchesBy_of_exec (hlong off)⟩
  case short =>
    rw [← sext8_toInt]
    exact branchesBy_of_exec (hshort off)

section JumpAndReturn
variable {m : Mem} {s t : State} {ea : Word} {hi lo : Byte}

theorem exec_jmp (haddr : effectiveAddress m s = .next (ea, t)) : exec (.jmp m) s = .next (t.set16 .pc ea) := by
  rw [exec, execJmp, haddr]
  rfl

theorem exec_rts (hword : s.Reads16 s.s hi lo) :
    exec .rts s = .next ((s.set16 .s (s.s + 2#16)).set16 .pc (be16 hi lo)) := by
  rw [exec, execRts, pull16_of_reads hword]
  rfl

end JumpAndReturn

/-- Settles O55: JMP writes PC after its address was computed; RTS moves S past the word that it loads. -/
theorem jmpAndRtsLoadPc : Obligations.JmpAndRtsLoadPc := by
  refine ⟨fun m s t ea haddr => ?jmp, fun s hi lo hword => ?rts⟩
  case jmp =>
    exact completesWith_of_addressed (effectiveAddress_state haddr) (exec_jmp haddr) (.set16 t .pc ea) rfl rfl
  case rts =>
    have hframe := (ChangesOnly.set16 s .s (s.s + 2#16)).trans (.set16 _ .pc (be16 hi lo))
    exact completesWith_of_addressed (.refl [] s) (exec_rts hword) hframe rfl
      ⟨be16_toNat hi lo, BitVec.toNat_add _ _⟩

end Sys2Proof.Machine

/-! # Waiting for an interrupt (R394, R395, R407, R419, R420) -/

namespace Sys2Proof.Machine

open Sys2Proof.Claims

/-! ## What an event clears and sets -/

/-- R411: the masks of the event's row are set, every other flag is kept. -/
theorem flag_setMasks (ev : Event) (s : State) (g : Flag) :
    (ev.setMasks s).flag g = if g ∈ (entryRow ev).sets then true else s.flag g := by
  cases ev with
  | nmi | swi | firq => cases g <;> simp [Event.setMasks, entryRow]
  | irq => cases g <;> simp [Event.setMasks, entryRow]
  | swi2 | swi3 => rfl

theorem FlagsOnly.setMasks (ev : Event) (s : State) : FlagsOnly s (ev.setMasks s) := by
  cases ev with
  | nmi | swi | firq => exact (FlagsOnly.setFlag s .f true).trans (.setFlag _ .i true)
  | irq => exact .setFlag s .i true
  | swi2 | swi3 => exact .refl s

theorem setMasks_changes (ev : Event) (s : State) : ChangesOnly [] (entryRow ev).sets [] s (ev.setMasks s) :=
  (FlagsOnly.setMasks ev s).changes [] [] fun g hg => by rw [flag_setMasks, if_neg hg]

/-- Clearing the latch on both sides keeps a frame. -/
theorem ChangesOnly.clearLatch {regs : List RegName} {flags : List Flag} {bytes : List Word} {s t : State}
    (h : ChangesOnly regs flags bytes s t) (ev : Event) :
    ChangesOnly regs flags bytes (ev.clearLatch s) (ev.clearLatch t) := by
  cases ev with
  | nmi => exact ⟨h.regs, h.flags, h.bytes, h.armed, rfl, h.runState, h.memMap, h.policies, h.inputs⟩
  | _ => exact h

theorem flag_clearLatch (ev : Event) (s : State) (g : Flag) : (ev.clearLatch s).flag g = s.flag g := by
  cases ev <;> rfl

theorem byteAt_clearLatch (ev : Event) (s : State) (q : Word) : (ev.clearLatch s).byteAt q = s.byteAt q := by
  cases ev <;> rfl

theorem clearLatch_sp (ev : Event) (s : State) (r : StackReg) : (ev.clearLatch s).sp r = s.sp r := by
  cases ev <;> rfl

theorem clearLatch_deviceLog (ev : Event) (s : State) : (ev.clearLatch s).deviceLog = s.deviceLog := by
  cases ev <;> rfl

theorem entryRow_vector (ev : Event) : (entryRow ev).vector = ev.vector := by
  cases ev <;> rfl

/-- The end of every entry: the masks set, PC from the vector, the latch cleared, nothing else (R409 to R413). -/
theorem enterVector_completes {ev : Event} {s : State} {hi lo : Byte}
    (h : s.Reads16 (entryRow ev).vector hi lo) :
    ∃ u, enterVector ev s = .next u ∧ u.pc.toNat = 256 * hi.toNat + lo.toNat ∧
      (∀ g ∈ (entryRow ev).sets, u.flag g = true) ∧
      ChangesOnly [.pc] (entryRow ev).sets [] (ev.clearLatch s) u ∧ u.deviceLog = s.deviceLog := by
  have hframe := ((setMasks_changes ev s).clearLatch ev).trans (.set16 _ .pc (be16 hi lo))
  refine ⟨_, enterVector_of_reads (entryRow_vector ev ▸ h), be16_toNat hi lo, fun g hg => ?masks,
    hframe.mono (by simp [Reg16.names]) (by simp) (by simp), ?log⟩
  case masks =>
    show (ev.clearLatch (ev.setMasks s)).flag g = true
    rw [flag_clearLatch, flag_setMasks, if_pos hg]
  case log => exact (clearLatch_deviceLog ev _).trans (FlagsOnly.setMasks ev s).deviceLog

/-! ## The boundary after the latch (R407 steps 2 to 4) -/

section Boundary
variable {s : State} {ev : Event}

theorem latchNmi_pending_iff : (latchNmi s.sample s.sampled).nmiPending = true ↔ NmiRequested s := by
  simp [latchNmi, NmiRequested, State.sampled]

/-- The event taken is the one of highest priority that the masks let through (R408). -/
theorem accepted_eq_some_iff : accepted s.sample (latchNmi s.sample s.sampled) = some ev ↔ Accepts s ev := by
  have hflag (g : Flag) : (latchNmi s.sample s.sampled).flag g = s.flag g := rfl
  by_cases hnmi : NmiRequested s
  · rw [accepted, if_pos (latchNmi_pending_iff.2 hnmi)]
    cases ev <;> simp [Accepts, hnmi]
  · rw [accepted, if_neg (mt latchNmi_pending_iff.1 hnmi), hflag, hflag]
    by_cases hfirq : s.sample.firqLevel = true ∧ s.flag .f = false
    all_goals cases ev <;> simp [Accepts, hnmi, hfirq]

theorem accepted_eq_none_iff : accepted s.sample (latchNmi s.sample s.sampled) = none ↔ ∀ ev, ¬Accepts s ev := by
  simp [Option.eq_none_iff_forall_ne_some, accepted_eq_some_iff]

theorem anyActive_iff : anyActive s.sample (latchNmi s.sample s.sampled) = true ↔
    NmiRequested s ∨ s.sample.firqLevel = true ∨ s.sample.irqLevel = true := by
  rw [anyActive, Bool.or_eq_true, Bool.or_eq_true, latchNmi_pending_iff, or_assoc]

/-- No NMI stays latched where an interrupt is taken: it is the one taken, or none was requested. -/
theorem nmiPending_clearLatch (h : Accepts s ev) :
    (ev.clearLatch (latchNmi s.sample s.sampled)).nmiPending = false := by
  have hnone (hno : ¬NmiRequested s) : (latchNmi s.sample s.sampled).nmiPending = false :=
    eq_false_of_ne_true (mt latchNmi_pending_iff.1 hno)
  cases ev with
  | nmi => rfl
  | firq | irq => exact hnone h.1
  | swi | swi2 | swi3 => exact h.elim

/-- The state an accepted interrupt is entered from. -/
theorem clearLatch_latchNmi (h : Accepts s ev) :
    ev.clearLatch { latchNmi s.sample s.sampled with runState := .running } =
      { s with inputs := s.inputs.tail, nmiPending := false, runState := .running } := by
  have hpending := nmiPending_clearLatch h
  cases ev with
  | nmi => rfl
  | _ => exact congrArg (fun p => { s.sampled with nmiPending := p, runState := .running }) hpending

theorem step_of_reset (h : s.sample.resetLevel = true) : step s = resetSequence s.sampled := by
  rw [step, boundary, if_pos h]

theorem step_of_not_reset (h : s.sample.resetLevel = false) :
    step s = runStateStep runInstr s.sample (latchNmi s.sample s.sampled) := by
  rw [step, boundary, h, if_neg nofun]

end Boundary

/-! ## Each wait (R407 step 3) -/

section Waits
variable {run : State → Result State} {i : Inputs} {s : State} {ev : Event}

theorem runStateStep_of_cwaiWait_accepted (hwait : s.runState = .cwaiWait) (h : accepted i s = some ev) :
    runStateStep run i s = enterAfterCwai ev s := by
  simp [runStateStep, hwait, h]

theorem runStateStep_of_cwaiWait_idle (hwait : s.runState = .cwaiWait) (h : accepted i s = none) :
    runStateStep run i s = .next s := by
  simp [runStateStep, hwait, h]

theorem runStateStep_of_syncWait_active (hwait : s.runState = .syncWait) (h : anyActive i s = true) :
    runStateStep run i s = runStateStep run i { s with runState := .running } := by
  simp [runStateStep, hwait, h]

theorem runStateStep_of_syncWait_idle (hwait : s.runState = .syncWait) (h : anyActive i s = false) :
    runStateStep run i s = .next s := by
  simp [runStateStep, hwait, h]

end Waits

/-- Settles O15: an event accepted goes straight to the end of every entry, without a push. -/
theorem cwaiWaitEndsWithoutStacking : Obligations.CwaiWaitEndsWithoutStacking := by
  refine ⟨fun ev s hi lo hreset hwait haccepts hvector => ?accepted, fun s hreset hwait hno => ?idle⟩
  case accepted =>
    have hstep : step s = enterAfterCwai ev (latchNmi s.sample s.sampled) :=
      (step_of_not_reset hreset).trans
        (runStateStep_of_cwaiWait_accepted hwait (accepted_eq_some_iff.2 haccepts))
    obtain ⟨u, henter, hpc, hmasks, hframe, hlog⟩ :=
      enterVector_completes (s := { latchNmi s.sample s.sampled with runState := .running }) hvector
    rw [clearLatch_latchNmi haccepts] at hframe
    exact ⟨u, hstep.trans henter, hpc, hmasks, hframe, hlog⟩
  case idle =>
    have hidle : runStateStep runInstr s.sample (latchNmi s.sample s.sampled) = _ :=
      runStateStep_of_cwaiWait_idle hwait (accepted_eq_none_iff.2 hno)
    rw [step_of_not_reset hreset, hidle, latchNmi_eq_self (hno .nmi), State.sampled]

/-- Settles O16: any active input makes the machine run, before it is asked which of them the masks let through. -/
theorem syncWaitEndsOnAnyInput : Obligations.SyncWaitEndsOnAnyInput := by
  refine ⟨fun s hreset hwait hnmi hfirq hirq => ?idle, fun s hwait hactive => ?active⟩
  case idle =>
    have hnone : anyActive s.sample (latchNmi s.sample s.sampled) = false :=
      eq_false_of_ne_true (mt anyActive_iff.1 (by simp [hnmi, hfirq, hirq]))
    have hidle : runStateStep runInstr s.sample (latchNmi s.sample s.sampled) = _ :=
      runStateStep_of_syncWait_idle hwait hnone
    rw [step_of_not_reset hreset, hidle, latchNmi_eq_self hnmi, State.sampled]
  case active =>
    let w : State := { s with runState := .running }
    cases hreset : s.sample.resetLevel with
    | true => exact (step_of_reset hreset).trans (step_of_reset (s := w) hreset).symm
    | false =>
      have hrun : runStateStep runInstr s.sample (latchNmi s.sample s.sampled) =
          runStateStep runInstr w.sample (latchNmi w.sample w.sampled) :=
        runStateStep_of_syncWait_active hwait (anyActive_iff.2 hactive)
      exact (step_of_not_reset hreset).trans (hrun.trans (step_of_not_reset (s := w) hreset).symm)

end Sys2Proof.Machine

/-! # Software interrupts and the return (R390 to R393, R411) -/

namespace Sys2Proof.Machine

open Sys2Proof.Claims

/-! ## Entries -/

section Entries
variable {s t m : State} {sp : Word} {bs : List Byte}

/-- The row of R400 and R411 says what `takeInterrupt` pushes, and with which E. -/
theorem frameOf_entryRow (ev : Event) (s : State) :
    frameOf (entryRow ev) s = stackBytes .s ev.frameMask (s.setFlag .e ev.entire) := by
  cases ev <;> rfl

theorem entryRow_entire (ev : Event) : (entryRow ev).entire = ev.entire := by
  cases ev <;> rfl

/-- No entry sets E with the masks. -/
theorem e_notMem_sets (ev : Event) : Flag.e ∉ (entryRow ev).sets := by
  cases ev <;> decide

theorem reads_of_byteAt {p : Word} {v : Byte} (h : m.Reads p v) (hk : t.memMap = m.memMap)
    (hb : t.byteAt p = m.byteAt p) : t.Reads p v := by
  rwa [State.Reads, State.kind_congr hk, hb]

/-- A push leaves the memory that `WithStored` describes. -/
theorem Stacked.byteAt_eq (h : Stacked .s bs s t) (hm : WithStored s (t.sp .s) bs m) (q : Word) :
    t.byteAt q = m.byteAt q := by
  obtain ⟨-, hstored, houtside⟩ := hm
  by_cases hq : q ∈ addresses (t.sp .s) bs.length
  · obtain ⟨k, hk, rfl⟩ := mem_addresses.1 hq
    rw [h.stored k _ (List.getElem?_eq_getElem hk), hstored k _ (List.getElem?_eq_getElem hk)]
  · rw [h.outside q hq, houtside q hq]

theorem Stacked.reads16 (h : Stacked .s bs s t) (hm : WithStored s (t.sp .s) bs m) {p : Word} {hi lo : Byte}
    (hr : m.Reads16 p hi lo) : t.Reads16 p hi lo := by
  have hk : t.memMap = m.memMap := h.memMap.trans hm.1.symm
  exact ⟨reads_of_byteAt hr.1 hk (h.byteAt_eq hm _), reads_of_byteAt hr.2 hk (h.byteAt_eq hm _)⟩

end Entries

/-- Taking an interrupt, hardware or software: E, the frame, the masks and PC as the event's row has them, the latch
cleared, nothing else (R390 to R392, R409 to R413). -/
theorem takeInterrupt_enters (ev : Event) (s : State) :
    Enters (entryRow ev) s (ev.clearLatch s) (takeInterrupt ev s) := by
  unfold Enters
  intro bs sp m hi lo htakes hm hvector
  let s1 := s.setFlag .e ev.entire
  have hbs : bs = stackBytes .s ev.frameMask s1 := frameOf_entryRow ev s
  obtain ⟨t, hpush, hst⟩ := pushRegs_stacked (r := .s) (mask := ev.frameMask) (s := s1) (hbs ▸ htakes)
  rw [← hbs] at hst
  have hsp : t.sp .s = sp := hst.sp_eq
  have hm1 : WithStored s1 (t.sp .s) bs m := hsp ▸ hm
  obtain ⟨u, henter, hpc, hmasks, hframe, hlog⟩ := enterVector_completes (hst.reads16 hm1 hvector)
  have hstacked : ChangesOnly [.s] [.e] (addresses sp bs.length) s t :=
    hsp ▸ (setFlag_changes s .e ev.entire).trans hst.changes
  have hbytes (q : Word) : u.byteAt q = t.byteAt q :=
    (hframe.bytes q (by simp)).trans (byteAt_clearLatch ev t q)
  refine ⟨u, takeInterrupt_eq_next.2 ⟨t, hpush, henter⟩, ?pointer, fun k v hk => ?stored, hpc, ?entire, hmasks,
    ?frame, ?log⟩
  case pointer =>
    have hkept : u.sp .s = (ev.clearLatch t).sp .s := hframe.regs .s (by simp)
    exact hkept.trans ((clearLatch_sp ev t .s).trans hsp)
  case stored =>
    rw [hbytes, ← hsp]
    exact hst.stored k v hk
  case entire =>
    have he : t.flag .e = s1.flag .e := hst.changes.flags .e (by simp)
    rw [hframe.flags .e (e_notMem_sets ev), flag_clearLatch, he, entryRow_entire]
    simp [s1]
  case frame => exact ((hstacked.clearLatch ev).trans hframe).mono (by simp) (by simp) (by simp)
  case log => rw [hlog, hst.deviceLog, clearLatch_deviceLog, State.setFlag_deviceLog]

/-- Settles O56: each of the three is the taking of its event, which has no latch to clear. -/
theorem softwareInterruptsEnterHandlers : Obligations.SoftwareInterruptsEnterHandlers :=
  fun s => ⟨takeInterrupt_enters .swi s, takeInterrupt_enters .swi2 s, takeInterrupt_enters .swi3 s⟩

/-! ## RTI -/

section Return
variable {s v : State} {r : StackReg}

theorem Result.andThen_next_right {α : Type} (o : Result α) : o.andThen .next = o := by
  cases o <;> rfl

theorem pullRegs_cc (r : StackReg) (s : State) : pullRegs r 0x01 s = pullItem r .cc s :=
  Result.andThen_next_right _

/-- The entire frame is CC and then all else (R318, R393). -/
theorem pullRegs_entire (r : StackReg) (s : State) :
    pullRegs r 0xFF s = (pullRegs r 0x01 s).andThen (pullRegs r 0xFE) := by
  rw [pullRegs_cc]
  rfl

/-- The short frame is CC and then PC (R318, R393). -/
theorem pullRegs_short (r : StackReg) (s : State) :
    pullRegs r 0x81 s = (pullRegs r 0x01 s).andThen (pullRegs r 0x80) := by
  rw [pullRegs_cc]
  rfl

/-- The postbyte of the frame that RTI pulls, by the E in it (R393). -/
def returnMask (e : Bool) : Byte := if e then 0xFF else 0x81

theorem returnMask_getLsbD_zero (e : Bool) : (returnMask e).getLsbD 0 = true := by
  cases e <;> rfl

/-- RTI is one pull, of the frame that the E at the stack pointer asks for. -/
theorem returnFromInterrupt_eq_pullRegs (h : s.Reads s.s v.cc) :
    returnFromInterrupt s = pullRegs .s (returnMask (v.flag .e)) s := by
  have hcc : pullRegs .s 0x01 s = .next ({ s with cc := v.cc }.setSp .s (s.s + 1#16)) := by
    rw [pullRegs_cc, pullItem, pull8_of_reads h]
    rfl
  rw [returnFromInterrupt, hcc, Result.andThen_next, State.flag_setSp]
  show pullRegs .s (if v.flag .e then 0xFE else 0x80) _ = _
  cases v.flag .e with
  | true => rw [returnMask, if_pos rfl, if_pos rfl, pullRegs_entire, hcc, Result.andThen_next]
  | false => rw [returnMask, if_neg nofun, if_neg nofun, pullRegs_short, hcc, Result.andThen_next]

/-- CC lies lowest in a frame that holds it (R318). -/
theorem reads_cc_of_holds {mask : Byte} {p : Word} (hbit : mask.getLsbD 0 = true)
    (h : Holds s p (stackBytes r mask v)) : s.Reads p v.cc := by
  rw [stackBytes_eq, pullOrder, ofSelected_cons_of_mem hbit] at h
  exact reads_of_holds h

end Return

/-- Settles O57: RTI is the pull of the frame's postbyte. -/
theorem rtiPullsFrameByE : Obligations.RtiPullsFrameByE := by
  intro s v mask bs hholds
  have hbit : mask.getLsbD 0 = true := returnMask_getLsbD_zero (v.flag .e)
  have hpull := pullRegs_of_holds (r := .s) hholds
  have hexec : exec .rti s = pullRegs .s mask s := returnFromInterrupt_eq_pullRegs (reads_cc_of_holds hbit hholds)
  have hframe := loadItems_changes hpull
  rw [if_pos hbit] at hframe
  exact completesWith_of_addressed (.refl [] s) (hexec.trans hpull) hframe
    ((State.setSp_deviceLog _ _ _).trans loadItems_deviceLog)
    ⟨State.sp_setSp _ .s _, loadItems_restored .s mask v s _⟩

/-! ## RTI after an entry -/

section Undo
variable {ev : Event} {s t : State}

/-- An entry leaves its frame on S, wherever the vector lies. -/
theorem takeInterrupt_holds (h : takeInterrupt ev s = .next t)
    (htakes : Takes s (s.s - BitVec.ofNat 16 (frameOf (entryRow ev) s).length) (frameOf (entryRow ev) s).length) :
    t.s = s.s - BitVec.ofNat 16 (frameOf (entryRow ev) s).length ∧ Holds t t.s (frameOf (entryRow ev) s) := by
  obtain ⟨m, hpush, henter⟩ := takeInterrupt_eq_next.1 h
  obtain ⟨log, pc, rfl⟩ := enterVector_state henter
  rw [frameOf_entryRow] at htakes ⊢
  obtain ⟨m', hpush', hst⟩ := pushRegs_stacked (r := .s) (s := s.setFlag .e ev.entire) htakes
  obtain rfl : m = m' := by
    rw [hpush] at hpush'
    exact Host.Outcome.next.inj hpush'
  have hsp : m.s = s.s - BitVec.ofNat 16 (stackBytes .s ev.frameMask (s.setFlag .e ev.entire)).length := hst.sp_eq
  have hholds : Holds m m.s (stackBytes .s ev.frameMask (s.setFlag .e ev.entire)) :=
    hst.holds (hst.sp_eq ▸ htakes)
  cases ev <;> exact ⟨hsp, holds_congr hholds rfl rfl⟩

/-- The entire frame holds every register but S (R390). -/
theorem mem_selected_entire {r : RegName} (h : r ≠ .s) : r ∈ selected .s 0xFF := by
  cases r with
  | s => exact absurd rfl h
  | _ => decide

/-- RTI undoes the entry of an event that stacks the entire frame: E alone is left as the frame has it (R393, R416). -/
theorem rti_of_takeInterrupt (hentire : ev.entire = true) (h : takeInterrupt ev s = .next t)
    (htakes : Takes s (s.s - 12) 12) :
    ∃ u, exec .rti t = .next u ∧ (∀ r, u.reg r = s.reg r) ∧ u.flag .e = true ∧
      ∀ g, g ≠ .e → u.flag g = s.flag g := by
  let v := s.setFlag .e true
  have hframe : frameOf (entryRow ev) s = stackBytes .s 0xFF v := by
    rw [frameOf_entryRow, Event.frameMask, hentire, if_pos rfl]
  obtain ⟨hsp, hholds⟩ := takeInterrupt_holds h (by rw [hframe]; exact htakes)
  rw [hframe] at hsp hholds
  have hmask : (if v.flag .e then 0xFF else 0x81 : Byte) = 0xFF := if_pos (by simp [v])
  have hreturn := rtiPullsFrameByE t v
  rw [hmask] at hreturn
  obtain ⟨u, hexec, -, -, -, hs, hcc, hregs⟩ := hreturn hholds
  have hflag (g : Flag) : u.flag g = v.flag g := State.flag_congr (hcc rfl) g
  refine ⟨u, hexec, fun r => ?_, by rw [hflag]; simp [v], fun g hg => by rw [hflag]; simp [v, hg]⟩
  by_cases hr : r = .s
  · subst hr
    show u.s = s.s
    rw [hs, hsp]
    exact sub_add_cancel _ _
  · exact (hregs r (mem_selected_entire hr)).trans ((FlagsOnly.setFlag s .e true).reg r)

end Undo

/-- Settles O58: SWI, SWI2 and SWI3 all stack the entire frame. -/
theorem rtiUndoesSoftwareInterrupt : Obligations.RtiUndoesSoftwareInterrupt := by
  intro i hi s t h htakes
  simp only [List.mem_cons, List.not_mem_nil, or_false] at hi
  rcases hi with rfl | rfl | rfl
  · exact rti_of_takeInterrupt (ev := .swi) rfl h htakes
  · exact rti_of_takeInterrupt (ev := .swi2) rfl h htakes
  · exact rti_of_takeInterrupt (ev := .swi3) rfl h htakes

end Sys2Proof.Machine

/-! # CWAI and SYNC (R394, R395) -/

namespace Sys2Proof.Machine

open Sys2Proof.Claims

/-- The run state written on both sides keeps a frame. -/
theorem ChangesOnly.withRunState {regs : List RegName} {flags : List Flag} {bytes : List Word} {s t : State}
    (h : ChangesOnly regs flags bytes s t) (r : RunState) :
    ChangesOnly regs flags bytes { s with runState := r } { t with runState := r } :=
  ⟨h.regs, h.flags, h.bytes, h.armed, h.pending, rfl, h.memMap, h.policies, h.inputs⟩

/-- CC as CWAI stacks it: masked by the operand, E set (R394). -/
def State.cwaiMasked (n : Byte) (s : State) : State := (s.set8 .cc (s.cc &&& n)).setFlag .e true

theorem cwaiMasked_changes (n : Byte) (s : State) : ChangesOnly [] allFlags [] s (s.cwaiMasked n) :=
  ((ChangesOnly.set8 s .cc (s.cc &&& n)).trans (setFlag_changes _ .e true)).mono (by simp [Reg8.names])
    (by simp [allFlags]) (by simp)

theorem cwaiMasked_flag (n : Byte) (s : State) (g : Flag) :
    (s.cwaiMasked n).flag g = if g = .e then true else s.flag g && n.getLsbD (bitOf g) := by
  rw [State.cwaiMasked, State.flag_setFlag, State.flag_eq_bitOf (s.set8 .cc _), State.flag_eq_bitOf s]
  show (if g = .e then true else (s.cc &&& n).getLsbD (bitOf g)) = _
  rw [BitVec.getLsbD_and]

/-- Settles O59: CWAI is a push of every register, after CC was masked, and then the wait. -/
theorem cwaiAndSyncWait : Obligations.CwaiAndSyncWait := by
  refine ⟨fun _ => rfl, ?_⟩
  intro n s bs sp htakes
  obtain ⟨t, hpush, hst⟩ := pushRegs_stacked (r := .s) (mask := 0xFF) (s := s.cwaiMasked n) htakes
  have hsp : t.sp .s = sp := hst.sp_eq
  have hexec : exec (.cwai n) s = .next { t with runState := .cwaiWait } :=
    Result.andThen_eq_next.2 ⟨t, hpush, rfl⟩
  have hframe : ChangesOnly [.s] allFlags (addresses sp bs.length) s t :=
    hsp ▸ (cwaiMasked_changes n s).trans hst.changes
  have hflag (g : Flag) : t.flag g = (s.cwaiMasked n).flag g := hst.changes.flags g (by simp)
  refine ⟨_, hexec, hsp, hsp ▸ hst.stored, ?entire, fun g hg => ?masked, hframe.withRunState _, hst.deviceLog⟩
  case entire => exact (hflag .e).trans (cwaiMasked_flag n s .e)
  case masked => exact (hflag g).trans ((cwaiMasked_flag n s g).trans (if_neg hg))

end Sys2Proof.Machine

/-! # Completion of well-formed instructions (R401) -/

namespace Sys2Proof.Machine

/-- On full RAM an operation with no reason left to stop answers a value. -/
theorem Sound.completes {α : Type} {E : Stop → Prop} {R : State → State → Prop} {out : α → State} {s : State}
    {o : Result α} (h : Sound E R out s o) (hs : s.FullRam) (hE : ∀ e, ¬E e) :
    ∃ x, o = .next x ∧ R s (out x) := by
  cases o with
  | next x => exact ⟨x, rfl, h.next x rfl⟩
  | fault r => exact absurd (h.stop hs (.inl r) rfl) (hE _)
  | refused r => exact absurd (h.stop hs (.inr r) rfl) (hE _)

theorem not_illFormed_of_wellFormed {i : Instr} (h : WellFormed i) (e : Stop) : ¬illFormed i.wellFormed e :=
  fun ⟨hill, _⟩ => Bool.false_ne_true (hill.symm.trans h)

/-- Settles O21: on full RAM an instruction stops only where its term is ill formed, and it unwrites no byte. -/
theorem wellFormedInstructionsComplete : Obligations.WellFormedInstructionsComplete := by
  intro i s hwf hs
  obtain ⟨t, hexec, hx⟩ := (exec_sound i s).completes hs (not_illFormed_of_wellFormed hwf)
  exact ⟨t, hexec, hx.storage.fullRam hs⟩

end Sys2Proof.Machine

/-! # Hardware interrupts (R404, R407 to R411) -/

namespace Sys2Proof.Machine

open Sys2Proof.Claims

section Accepted
variable {s : State} {ev : Event}

/-- What is accepted has an active input (R395, R407). -/
theorem anyActive_of_accepts (h : Accepts s ev) : anyActive s.sample (latchNmi s.sample s.sampled) = true := by
  rw [anyActive_iff]
  cases ev with
  | nmi => exact .inl h
  | firq =>
    obtain ⟨-, hfirq, -⟩ := h
    exact .inr (.inl hfirq)
  | irq =>
    obtain ⟨-, -, hirq, -⟩ := h
    exact .inr (.inr hirq)
  | swi | swi2 | swi3 => exact h.elim

theorem runStateStep_of_running {run : State → Result State} {i : Inputs} (hrun : s.runState = .running) :
    runStateStep run i s = takeOrRun run i s := by
  rw [runStateStep, hrun]

theorem takeOrRun_of_accepted {run : State → Result State} {i : Inputs} (h : accepted i s = some ev) :
    takeOrRun run i s = takeInterrupt ev s := by
  rw [takeOrRun, h]

/-- Outside CWAI's wait the step of an accepted interrupt is its entry, as a running machine makes it: SYNC's wait ends
at the input that is active (R407 steps 3 and 4, R420). -/
theorem step_of_accepts (hreset : s.sample.resetLevel = false) (hwait : s.runState ≠ .cwaiWait) (h : Accepts s ev) :
    step s = takeInterrupt ev { latchNmi s.sample s.sampled with runState := .running } := by
  let latched := latchNmi s.sample s.sampled
  have hstep : step s = runStateStep runInstr s.sample latched := step_of_not_reset hreset
  have hrunning : runStateStep runInstr s.sample latched =
      runStateStep runInstr s.sample { latched with runState := .running } := by
    cases hrun : s.runState with
    | running => exact congrArg (fun r => runStateStep runInstr s.sample { latched with runState := r }) hrun
    | syncWait => exact runStateStep_of_syncWait_active hrun (anyActive_of_accepts h)
    | cwaiWait => exact absurd hrun hwait
  rw [hstep, hrunning, runStateStep_of_running rfl]
  exact takeOrRun_of_accepted (accepted_eq_some_iff.2 h)

end Accepted

/-- Settles O14: the entry is taken from a state with the registers and the memory of `s`. -/
theorem hardwareInterruptsEnterHandlers : Obligations.HardwareInterruptsEnterHandlers := by
  intro ev s hreset hwait haccepts
  have henters := takeInterrupt_enters ev { latchNmi s.sample s.sampled with runState := .running }
  rw [clearLatch_latchNmi haccepts] at henters
  rw [step_of_accepts hreset hwait haccepts]
  exact henters

end Sys2Proof.Machine

/-! # The reset input (R407, R450, R451) -/

namespace Sys2Proof.Machine

open Sys2Proof.Claims

/-- NMI disarmed, none pending, running: what R450 does to the control fields; `resetSequence_of_reads` ties it to
the reset sequence. -/
def State.restarted (s : State) : State :=
  { s with nmiArmed := false, nmiPending := false, runState := .running }

section Reset
variable {s : State} {hi lo : Byte}

/-- The reset sequence as register writes, where the vector can be read (R450). -/
theorem resetSequence_of_reads (h : s.Reads16 resetVector hi lo) :
    resetSequence s =
      .next ((((s.restarted.setFlag .f true).setFlag .i true).set8 .dp 0).set16 .pc (be16 hi lo)) := by
  have hread : State.Reads16 (((s.restarted.setFlag .f true).setFlag .i true).set8 .dp 0) resetVector hi lo := h
  exact Result.andThen_eq_next.2 ⟨_, read16_of_reads .other hread, rfl⟩

/-- The reset sequence writes F, I, DP and PC, and nothing else but the control fields (R450, R451). -/
theorem resetSequence_completes (h : s.Reads16 resetVector hi lo) :
    ∃ u, resetSequence s = .next u ∧ u.flag .f = true ∧ u.flag .i = true ∧ u.dp = 0 ∧
      u.pc.toNat = 256 * hi.toNat + lo.toNat ∧ ChangesOnly [.dp, .pc] [.f, .i] [] s.restarted u ∧
      u.deviceLog = s.deviceLog := by
  let masked := (s.restarted.setFlag .f true).setFlag .i true
  have hmasked : ChangesOnly [] [.f, .i] [] s.restarted masked :=
    (setFlag_changes _ .f true).trans (setFlag_changes _ .i true)
  have hframe := (hmasked.trans (.set8 masked .dp 0)).trans (.set16 _ .pc (be16 hi lo))
  have hflag (g : Flag) : ((masked.set8 .dp 0).set16 .pc (be16 hi lo)).flag g = masked.flag g := rfl
  refine ⟨_, resetSequence_of_reads h, ?firqMask, ?irqMask, rfl, be16_toNat hi lo, hframe, rfl⟩
  case firqMask => exact (hflag .f).trans (by simp [masked])
  case irqMask => exact (hflag .i).trans (by simp [masked])

end Reset

/-- Settles O11: the reset sequence runs on the state with the sample taken, before any latch. -/
theorem resetInputRunsResetSequence : Obligations.ResetInputRunsResetSequence := by
  intro s hi lo hreset hvector
  rw [step_of_reset hreset]
  exact resetSequence_completes (s := s.sampled) hvector

end Sys2Proof.Machine

/-! # An NMI edge while NMI is disarmed (R404, R407, R455) -/

namespace Sys2Proof.Machine

section DisarmedEdge
variable {s : State} {i : Inputs} {rest : List Inputs}

theorem sample_of_inputs (h : s.inputs = i :: rest) : s.sample = i := by
  rw [State.sample, h]

theorem sampled_of_inputs (h : s.inputs = i :: rest) : s.sampled = { s with inputs := rest } := by
  rw [State.sampled, h, List.tail_cons]

/-- Disarmed, step 2 of R407 latches nothing (R404). -/
theorem latchNmi_of_disarmed (h : s.nmiArmed = false) : latchNmi i s = s := by
  have hpending : (s.nmiPending || (i.nmiEdge && s.nmiArmed)) = s.nmiPending := by
    rw [h, Bool.and_false, Bool.or_false]
  rw [latchNmi, hpending]

/-- After the latch the edge is not read: priority and waits ask for `nmi_pending` (R407 steps 3 and 4). -/
theorem runStateStep_nmiEdge (run : State → Result State) (i : Inputs) (edge : Bool) (s : State) :
    runStateStep run { i with nmiEdge := edge } s = runStateStep run i s := rfl

/-- Disarmed, a step is one without its latch (R407). -/
theorem step_of_disarmed (harmed : s.nmiArmed = false) (hinputs : s.inputs = i :: rest) :
    step s = if i.resetLevel then resetSequence { s with inputs := rest }
      else runStateStep runInstr i { s with inputs := rest } := by
  have hlatch : latchNmi i { s with inputs := rest } = { s with inputs := rest } := latchNmi_of_disarmed harmed
  rw [step, boundary, sample_of_inputs hinputs, sampled_of_inputs hinputs, hlatch]

end DisarmedEdge

/-- Settles O17: the edge is read by the latch alone, and that takes no edge while NMI is disarmed. -/
theorem disarmedNmiIsLost : Obligations.DisarmedNmiIsLost := by
  intro s i rest harmed hinputs
  let quiet : State := { s with inputs := { i with nmiEdge := false } :: rest }
  rw [step_of_disarmed harmed hinputs, ← runStateStep_nmiEdge runInstr i false]
  exact (step_of_disarmed (s := quiet) harmed rfl).symm

end Sys2Proof.Machine
